-- ==== Sys2Proof/Word.lean ====
section
/-! DEFINITION. Word.lean: the widths of 00_scope.md rule R7. -/
namespace Sys2Proof

/-- A data byte: 8 bits (R7). -/
abbrev Byte := BitVec 8

/-- `idx`, `len`, `cnt` and `polls`: 16 bits, unsigned (R7). -/
abbrev Half := BitVec 16

/-- Host registers and the command word: 32 bits (R7). -/
abbrev Word := BitVec 32

/-- An address of the host register space: 8 bits (20_memory.md rule R51). -/
abbrev HostAddr := BitVec 8

end Sys2Proof
end

