-- ==== Sys2Proof/Syntax.lean ====
section
/-! DEFINITION. Syntax.lean: the host commands, one constructor per row of the opcode map (30_encoding.md rule R76). -/
namespace Sys2Proof

/-- A decoded command with its operand fields (30_encoding.md rule R75). -/
inductive Instr where
  | nop
  | send (n : Half)
  | retry
  | abort
  | setle (pol : BitVec 2)
  | ack
  | wrbuf (a : Half) (v : Byte)
deriving DecidableEq, Repr

end Sys2Proof
end

