-- ==== Sys2Proof/WellFormed.lean ====
section
/-! DEFINITION. WellFormed.lean: the commands that have an encoding. The widths are in the types; the one check left is
`POL != 3` (30_encoding.md rules R73 and R77 (c)). -/
namespace Sys2Proof

def Instr.wellFormed : Instr → Bool
  | .nop       => true
  | .send _    => true
  | .retry     => true
  | .abort     => true
  | .setle pol => pol != 3#2
  | .ack       => true
  | .wrbuf _ _ => true

end Sys2Proof
end

