-- ==== Sys2Proof/Decode.lean ====
section
/-! DEFINITION. Decode.lean: the decoder of 30_encoding.md rule R79, the encoder of rules R71 to R76, and the opcode map of rule
R76 as data. -/
namespace Sys2Proof

/-! ## Notation of 00_scope.md rule R8 -/

/-- `v[hi:lo]`. -/
abbrev bits {n : Nat} (hi lo : Nat) (v : BitVec n) : BitVec (hi - lo + 1) := v.extractLsb hi lo

/-- `zext_N(v)`. -/
abbrev zext {n : Nat} (m : Nat) (v : BitVec n) : BitVec m := v.zeroExtend m

/-- `sext_N(v)`: "is defined (sign-extend to N bits) but no rule uses it". -/
abbrev sext {n : Nat} (m : Nat) (v : BitVec n) : BitVec m := v.signExtend m

/-! ## Decoding -/

/-- Why a word is reserved (R77), or no word at all. -/
inductive ReservedReason where
  /-- (a) OP is 0x7 to 0xF. -/
  | opcode
  /-- (b) a must-be-zero bit of its format is 1. -/
  | mustBeZero
  /-- (c) OP = 0x4 and POL = 3. -/
  | policy
  /-- Not four byte lanes: "There is one length" (R70). -/
  | length
deriving DecidableEq, Repr

/-- A command word decodes as `i` if its must-be-zero field is zero. -/
def unlessSet {n : Nat} (mbz : BitVec n) (i : Instr) : Except ReservedReason Instr :=
  if mbz = 0#n then .ok i else .error .mustBeZero

/-- R79: "Decoding is total on all 2^32 words. This function is the only decoder". -/
def decode (w : Word) : Except ReservedReason Instr :=
  if bits 31 28 w = 0x0#4 then unlessSet (bits 27 0 w) .nop
  else if bits 31 28 w = 0x1#4 then unlessSet (bits 27 16 w) (.send (bits 15 0 w))
  else if bits 31 28 w = 0x2#4 then unlessSet (bits 27 0 w) .retry
  else if bits 31 28 w = 0x3#4 then unlessSet (bits 27 0 w) .abort
  else if bits 31 28 w = 0x4#4 then
    if bits 1 0 w = 3#2 then .error .policy else unlessSet (bits 27 2 w) (.setle (bits 1 0 w))
  else if bits 31 28 w = 0x5#4 then unlessSet (bits 27 0 w) .ack
  else if bits 31 28 w = 0x6#4 then unlessSet (bits 27 24 w) (.wrbuf (bits 23 8 w) (bits 7 0 w))
  else .error .opcode

/-- The byte lanes of a word, if a host bus has them: "bits [7:0] are the lowest-addressed byte (little-endian)"
(20_memory.md rule R55). -/
def lanesOf (w : Word) : List Byte := [bits 7 0 w, bits 15 8 w, bits 23 16 w, bits 31 24 w]

/-- The decoder on byte lanes, total on any bytes (log 14). -/
def decodeLanes : List Byte → Except ReservedReason Instr
  | [b0, b1, b2, b3] => decode (b3 ++ b2 ++ b1 ++ b0)
  | _                => .error .length

/-! ## Encoding (R71 to R76) -/

def encode : Instr → Word
  | .nop       => 0x0#4 ++ 0#28
  | .send n    => 0x1#4 ++ 0#12 ++ n
  | .retry     => 0x2#4 ++ 0#28
  | .abort     => 0x3#4 ++ 0#28
  | .setle pol => 0x4#4 ++ 0#26 ++ pol
  | .ack       => 0x5#4 ++ 0#28
  | .wrbuf a v => 0x6#4 ++ 0#4 ++ a ++ v

/-! ## The opcode map (R76) -/

structure OpcodeRow where
  mnemonic : String
  pattern  : Word
  mask     : Word
  excludes : List Word
deriving DecidableEq, Repr

/-- The row of R76 a command belongs to; `excludes` is SETLE's extra condition `w[1:0] != 3`. -/
def Instr.row : Instr → OpcodeRow
  | .nop       => ⟨"NOP",   0x00000000#32, 0xFFFFFFFF#32, []⟩
  | .send _    => ⟨"SEND",  0x10000000#32, 0xFFFF0000#32, []⟩
  | .retry     => ⟨"RETRY", 0x20000000#32, 0xFFFFFFFF#32, []⟩
  | .abort     => ⟨"ABORT", 0x30000000#32, 0xFFFFFFFF#32, []⟩
  | .setle _   => ⟨"SETLE", 0x40000000#32, 0xFFFFFFFC#32, [0x40000003#32]⟩
  | .ack       => ⟨"ACK",   0x50000000#32, 0xFFFFFFFF#32, []⟩
  | .wrbuf _ _ => ⟨"WRBUF", 0x60000000#32, 0xFF000000#32, []⟩

/-- The rows of R76 in the table's order. -/
def opcodeMap : List OpcodeRow :=
  [Instr.nop.row, (Instr.send 0).row, Instr.retry.row, Instr.abort.row, (Instr.setle 0).row, Instr.ack.row, (Instr.wrbuf 0 0).row]

def OpcodeRow.matchesWord (r : OpcodeRow) (w : Word) : Bool :=
  w &&& r.mask == r.pattern && !r.excludes.contains w

/-! ## The host's question about a table word -/

/-- The instruction the decoder reads from the word `w` of `nbits` bits (one 32-bit word, R70), laid out in byte lanes. -/
def decodeTableWord (nbits w : Nat) : Option Instr :=
  if nbits ≤ 32 then (decodeLanes (lanesOf (BitVec.ofNat 32 (w % 2 ^ nbits)))).toOption else none

end Sys2Proof
end

