-- ==== Sys2Proof/Config.lean ====
section
/-! DEFINITION. Config.lean: the implementation parameters of 00_scope.md rule R6 and the free values
(93_implementation_defined.md U1 to U10). The opaque constants have no body: nothing can be proved of their values. -/
namespace Sys2Proof

/-- PrinterStatus (00_scope.md rule R11): "boolean fields {ack, busy, paperEnd, select, error}". -/
structure PrinterStatus where
  ack      : Bool
  busy     : Bool
  paperEnd : Bool
  select   : Bool
  error    : Bool
deriving DecidableEq, Repr, Inhabited

/-- A parameter in 1..65535 (R6); the range is carried by the value. -/
structure Count where
  val : Half
  pos : val ≠ 0#16
deriving DecidableEq, Repr

/-- Every count in 1..65535 is `clamp` of itself; 0 becomes 1. -/
def Count.clamp (v : Half) : Count :=
  if h : v = 0#16 then ⟨1#16, by decide⟩ else ⟨v, h⟩

def Count.toNat (c : Count) : Nat := c.val.toNat

/-- `LINE_POLARITY` of one line (R6): the electrical level of the logical value 1. -/
inductive Polarity where
  | activeHigh
  | activeLow
deriving DecidableEq, Repr, Inhabited

/-- `LINE_POLARITY` "for each of strobe, autofeed, init" (R6). -/
structure LinePolarity where
  strobe   : Polarity
  autofeed : Polarity
  init     : Polarity
deriving DecidableEq, Repr, Inhabited

/-- `F_CLK` in Hz: a "positive real" (R6). An argument of the time values (70_reset_and_hazards.md rule R205), no field of
`Params`: equality of reals is not decidable, and State is plain data (log 12). -/
structure Frequency where
  hz  : ℝ
  pos : 0 < hz

/-- The parameters of R6, as plain data, but for `F_CLK` (`Frequency`). `decodeStatus`, "total function 8-bit value -> PrinterStatus", is its
table: row `b` is the status of the input register value `b`. -/
structure Params where
  settleCycles       : Count
  strobeCycles       : Count
  pollCycles         : Count
  /-- `MAX_POLLS`, 0..65535; 0 = no bound. -/
  maxPolls           : Half
  ackDistinguishable : Bool
  seqMax             : Count
  /-- `DATA_ADDR`, opaque to the block, "of a width the transport fixes" (20_memory.md rule R59). -/
  dataAddr           : Nat
  /-- `STATUS_ADDR`, opaque to the block. -/
  statusAddr         : Nat
  statusTable        : Vector PrinterStatus 256
  linePolarity       : LinePolarity
deriving DecidableEq, Repr

/-- The port `tresp` in one cycle (10_state.md rule R21): `NONE`, `OK`, `OK(b)` or `BUSERR`. -/
inductive Tresp where
  | none
  | ok
  | okByte (b : Byte)
  | busErr
deriving DecidableEq, Repr, Inhabited

/-! ## Open values (log 1, log 2, log 3, log 19) -/

opaque Config.settleCycles : Half
opaque Config.strobeCycles : Half
opaque Config.pollCycles : Half
opaque Config.maxPolls : Half
opaque Config.ackDistinguishable : Bool
opaque Config.seqMax : Half
opaque Config.dataAddr : Nat
opaque Config.statusAddr : Nat
opaque Config.decodeStatus : Byte → PrinterStatus
opaque Config.linePolarity : LinePolarity

/-- Whether a byte of SEQ written before a reset still reads as written after it (log 19). -/
opaque Config.resetKeepsSeq : Bool

/-- The byte a `MemRead` of an unwritten SEQ index returns, by draw number (93 U9). -/
opaque Config.seqDraw : Nat → Byte

/-- What the Transport offers in a cycle for which nothing is listed, by draw number (93 U10). -/
opaque Config.transportDraw : Nat → Tresp

/-- The table of a total function on bytes. -/
def statusTableOf (f : Byte → PrinterStatus) : Vector PrinterStatus 256 :=
  ⟨⟨(List.range 256).map fun i => f (BitVec.ofNat 8 i)⟩, by simp⟩

/-- The parameters of this machine, every one open. -/
def Config.params : Params where
  settleCycles       := Count.clamp Config.settleCycles
  strobeCycles       := Count.clamp Config.strobeCycles
  pollCycles         := Count.clamp Config.pollCycles
  maxPolls           := Config.maxPolls
  ackDistinguishable := Config.ackDistinguishable
  seqMax             := Count.clamp Config.seqMax
  dataAddr           := Config.dataAddr
  statusAddr         := Config.statusAddr
  statusTable        := statusTableOf Config.decodeStatus
  linePolarity       := Config.linePolarity

end Sys2Proof
end

