-- ==== Sys2Proof/Machine/State.lean ====
section
/-! DEFINITION. Machine/State.lean: every state element of 10_state.md rule R20, the model's own fields, the stops, and reset. -/
namespace Sys2Proof.Machine

/-- The engine's states (10_state.md rule R22). Codes 9 to 15 are reserved and unreachable (30_encoding.md rule R78): no value
stands for one (log 6). -/
inductive EngineState where
  | idle
  | setData
  | settle
  | strobe
  | release
  | pollWait
  | poll
  | faultWait
  | done
deriving DecidableEq, Repr

/-- The LineEnding policy, "enumerated {Hard, Soft, None}" (R29). "The value 3 is never held" (log 6). -/
inductive LinePolicy where
  | none
  | hard
  | soft
deriving DecidableEq, Repr

/-- The fault reasons `{pe, desel, err, to}` (R32); `to` is a word of Lean's and is spelt `timeout`. -/
structure FaultReasons where
  pe      : Bool
  desel   : Bool
  err     : Bool
  timeout : Bool
deriving DecidableEq, Repr

/-- `res.flags = {pe, desel, err}` (R33), also the flags of `FAULT(flags)` (40_status_monitor.md rule R105). -/
structure DeviceFlags where
  pe    : Bool
  desel : Bool
  err   : Bool
deriving DecidableEq, Repr

/-- `res.code` (R33). "Codes 5 to 7 are never written": no value stands for one (log 6). -/
inductive ResultCode where
  | none
  | ok
  | busError
  | deviceFault
  | timeout
deriving DecidableEq, Repr

/-- `res`, the result of the last transfer (R33). -/
structure Result where
  code  : ResultCode
  phase : BitVec 1
  flags : DeviceFlags
  ridx  : Half
deriving DecidableEq, Repr

/-- `treq`, the outstanding transport request (R35). -/
inductive Treq where
  | none
  | write (addr : Nat) (v : Byte)
  | read (addr : Nat)
deriving DecidableEq, Repr

/-- The host access of one cycle: at most one, `Read(a)` or `Write(a, v)` (20_memory.md rule R53). -/
inductive HostAccess where
  | none
  | read (a : HostAddr)
  | write (a : HostAddr) (v : Word)
deriving DecidableEq, Repr

/-- The inputs of one cycle the Transport does not drive (R21): `rst` and the host access. -/
structure HostPins where
  rst    : Bool
  access : HostAccess
deriving DecidableEq, Repr

/-- SEQ: the bytes the host has written, by index (R36), in canonical form (indices strictly rising, `Memory.wf`). An
unlisted index reads as a draw (log 2), so every written byte is listed. -/
abbrev Memory := List Host.Cell

/-- The stops of the model. Every error of the block (60_exceptions.md) is a next state, not a stop. -/
inductive Fault where
  /-- Raised by the engine's READY outcome (41_handshake_engine.md rule R122) when the byte it would begin has an index at or
  above `SEQ_MAX`: "An index `>= SEQ_MAX` is never accessed" (20_memory.md rule R56). Safe: only states outside R45 raise it. -/
  | seqIndexOutOfRange
deriving DecidableEq, Repr

/-- The refusals of the model. -/
inductive Refusal where
  /-- Raised by an arm of `exec` whose command has no meaning yet. Safe. No arm is such a one. -/
  | notModelled (mnemonic : String)
deriving DecidableEq, Repr

/-- The state of the block (10_state.md section 2) and, last, the model's own fields. -/
structure State where
  /-- R22 -/
  st      : EngineState
  /-- R23 -/
  idx     : Half
  /-- R24 -/
  len     : Half
  /-- R25 -/
  cnt     : Half
  /-- R26 -/
  polls   : Half
  /-- R27; `none` is the spec's mark `unset`. -/
  dataQ   : Option Byte
  /-- R28 -/
  strobeQ : Bool
  /-- R29 -/
  policy  : LinePolicy
  /-- R31 -/
  pstat   : PrinterStatus
  /-- R31 -/
  pvalid  : Bool
  /-- R32 -/
  fault   : FaultReasons
  /-- R33 -/
  res     : Result
  /-- R34 -/
  rej     : Bool
  /-- R35 -/
  treq    : Treq
  /-- R36 -/
  seq     : Memory
  /-- Model's own: the parameters of 00_scope.md rule R6, which no step writes (log 1). -/
  params  : Params
  /-- Model's own: `rst` and the host access of the coming cycles; past its end the pins are idle (log 4). -/
  hostIn  : List HostPins
  /-- Model's own: what the Transport offers in the coming cycles; past its end it is a draw (log 3). -/
  trespIn : List Tresp
  /-- Model's own: the number of the next draw (log 5). -/
  draws   : Nat
  /-- Model's own: the indices of `seq` written before the last reset and not since (log 19). -/
  seqOld  : List Nat
  /-- Model's own: whether a byte at one of them still reads as written, the open point of `Config.resetKeepsSeq`, which no
  step writes (log 19). -/
  seqKept : Bool
  /-- The Transport's: the request cut off by reset and not answered since (70_reset_and_hazards.md rule R191). -/
  abandoned : Treq
deriving DecidableEq, Repr

/-- The block right after reset (70_reset_and_hazards.md rule R190); SEQ is unspecified (log 2), the parameters are open (log 1),
nothing is on the pins (log 4) and no request was cut off. -/
def State.reset : State where
  st      := .idle
  idx     := 0#16
  len     := 0#16
  cnt     := 0#16
  polls   := 0#16
  dataQ   := none
  strobeQ := false
  policy  := .none
  pstat   := ⟨false, false, false, false, false⟩
  pvalid  := false
  fault   := ⟨false, false, false, false⟩
  res     := ⟨.none, 0#1, ⟨false, false, false⟩, 0#16⟩
  rej     := false
  treq    := .none
  seq     := []
  params  := Config.params
  hostIn  := []
  trespIn := []
  draws   := 0
  seqOld  := []
  seqKept := Config.resetKeepsSeq
  abandoned := .none

end Sys2Proof.Machine
end

