-- ==== Sys2Proof/Machine/Operands.lean ====
section
/-! DEFINITION. Machine/Operands.lean: the codes of the enumerated state, and the operand checks that 30_encoding.md rule R79
leaves to the commands' rules. -/
namespace Sys2Proof.Machine

/-- The 4-bit state code (10_state.md rule R22). -/
def EngineState.code : EngineState → BitVec 4
  | .idle      => 0#4
  | .setData   => 1#4
  | .settle    => 2#4
  | .strobe    => 3#4
  | .release   => 4#4
  | .pollWait  => 5#4
  | .poll      => 6#4
  | .faultWait => 7#4
  | .done      => 8#4

/-- The 2-bit policy code: "0 = NONE, 1 = HARD, 2 = SOFT" (10_state.md rule R29). -/
def LinePolicy.code : LinePolicy → BitVec 2
  | .none => 0#2
  | .hard => 1#2
  | .soft => 2#2

/-- SETLE's operand (30_encoding.md rule R73): 3 is reserved. -/
def LinePolicy.ofBits (pol : BitVec 2) : Option LinePolicy :=
  if pol = 0#2 then some .none
  else if pol = 1#2 then some .hard
  else if pol = 2#2 then some .soft
  else Option.none

/-- `res.code` (10_state.md rule R33). -/
def ResultCode.code : ResultCode → BitVec 3
  | .none        => 0#3
  | .ok          => 1#3
  | .busError    => 2#3
  | .deviceFault => 3#3
  | .timeout     => 4#3

/-- `N <= SEQ_MAX` (42_host_commands.md rule R141). -/
def State.lengthFits (s : State) (n : Half) : Bool := decide (n.toNat ≤ s.params.seqMax.toNat)

/-- `A < SEQ_MAX` (42_host_commands.md rule R147). -/
def State.indexFits (s : State) (a : Half) : Bool := decide (a.toNat < s.params.seqMax.toNat)

/-- `st` is IDLE or DONE: where SEND, SETLE, ACK and WRBUF are accepted (42_host_commands.md rule R149). -/
def EngineState.betweenTransfers : EngineState → Bool
  | .idle      => true
  | .done      => true
  | .setData   => false
  | .settle    => false
  | .strobe    => false
  | .release   => false
  | .pollWait  => false
  | .poll      => false
  | .faultWait => false

/-- `st` is FAULT_WAIT: where RETRY and ABORT are accepted (42_host_commands.md rule R149). -/
def EngineState.atDecision : EngineState → Bool
  | .faultWait => true
  | .idle      => false
  | .done      => false
  | .setData   => false
  | .settle    => false
  | .strobe    => false
  | .release   => false
  | .pollWait  => false
  | .poll      => false

/-- IDLE, FAULT_WAIT and DONE, where "`engineStep` writes nothing" (41_handshake_engine.md rule R125). -/
def EngineState.inert (st : EngineState) : Bool := st.betweenTransfers || st.atDecision

end Sys2Proof.Machine
end

