-- ==== Sys2Proof/Machine/Flags.lean ====
section
/-! DEFINITION. Machine/Flags.lean: the Status Monitor (40_status_monitor.md), ATTN and the output lines. -/
namespace Sys2Proof.Machine

/-! ## Status Monitor -/

/-- `decodeStatus(b)`: row `b` of the parameter's table (R100). -/
def decodeStatus (p : Params) (b : Byte) : PrinterStatus := p.statusTable[b.toNat]'(b.isLt)

/-- R101: "`paperEnd == true OR select == false OR error == false`". -/
def isFault (ps : PrinterStatus) : Bool := ps.paperEnd || !ps.select || !ps.error

/-- R102: "`busy == false AND ack == true` (or, on transports without a distinguishable ack, `busy == false` alone)". -/
def rawReady (p : Params) (ps : PrinterStatus) : Bool := !ps.busy && (ps.ack || !p.ackDistinguishable)

/-- R105: `{pe = s.paperEnd, desel = not s.select, err = not s.error}`. -/
def faultFlags (ps : PrinterStatus) : DeviceFlags := ⟨ps.paperEnd, !ps.select, !ps.error⟩

/-- The three outcomes of `classify` (R104). -/
inductive Classification where
  | fault (flags : DeviceFlags)
  | ready
  | undecided
deriving DecidableEq, Repr

/-- R104; Fault excludes Ready (R103, 90_conflicts.md C4). -/
def classify (p : Params) (ps : PrinterStatus) : Classification :=
  if isFault ps then .fault (faultFlags ps)
  else if rawReady p ps then .ready
  else .undecided

/-! ## Fault reasons -/

/-- The reasons of a poll classified `FAULT(f)`: `to = 0` (41_handshake_engine.md rule R121). -/
def DeviceFlags.reasons (f : DeviceFlags) : FaultReasons := ⟨f.pe, f.desel, f.err, false⟩

/-- The reasons of a timeout: `to = 1` alone (41_handshake_engine.md rule R124). -/
def timeoutReasons : FaultReasons := ⟨false, false, false, true⟩

def noReasons : FaultReasons := ⟨false, false, false, false⟩

def noFlags : DeviceFlags := ⟨false, false, false⟩

/-- `{fault.pe, fault.desel, fault.err}` (42_host_commands.md rule R143). -/
def FaultReasons.flags (f : FaultReasons) : DeviceFlags := ⟨f.pe, f.desel, f.err⟩

/-- The cleared result, code NONE (10_state.md rule R33). -/
def noResult : Result := ⟨.none, 0#1, noFlags, 0#16⟩

/-! ## Poll counter -/

/-- `p' = min(polls + 1, 65535)` (41_handshake_engine.md rule R123). -/
def nextPolls (polls : Half) : Half := if polls = 0xFFFF#16 then polls else polls + 1#16

/-- `MAX_POLLS != 0 and p' >= MAX_POLLS` (41_handshake_engine.md rule R124). -/
def boundReached (p : Params) (polls : Half) : Bool := p.maxPolls != 0#16 && decide (p.maxPolls ≤ polls)

/-! ## Outputs -/

/-- R43: "`ATTN = 1` if and only if `st = FAULT_WAIT` or `st = DONE`". -/
def State.attn (s : State) : Bool := s.st == .faultWait || s.st == .done

/-- R21: the value of `strobe_q`. -/
def State.strobe (s : State) : Bool := s.strobeQ

/-- R30: "`autofeed = 1` if and only if `policy = HARD`". -/
def State.autofeed (s : State) : Bool := s.policy == .hard

/-- R30: "`init = 0` always". -/
def State.init (_ : State) : Bool := false

/-- The electrical level of a logical value under `LINE_POLARITY` (00_scope.md rule R6). -/
def Polarity.level (p : Polarity) (logical : Bool) : Bool :=
  match p with
  | .activeHigh => logical
  | .activeLow  => !logical

/-- The electrical levels of the three output lines (10_state.md rule R21). -/
def State.strobeLevel (s : State) : Bool := Polarity.level s.params.linePolarity.strobe s.strobe
def State.autofeedLevel (s : State) : Bool := Polarity.level s.params.linePolarity.autofeed s.autofeed
def State.initLevel (s : State) : Bool := Polarity.level s.params.linePolarity.init s.init

end Sys2Proof.Machine
end

