-- ==== Sys2Proof/Machine/Ops.lean ====
section
/-! DEFINITION. Machine/Ops.lean: the operations several rules share: SEQ, rejection, the entries of the engine's states, the
end of a transfer, the decision point and its return, the inputs and the Transport's contract, reset and the passing of a
cycle. -/
namespace Sys2Proof.Machine

/-! ## The sequence buffer (20_memory.md rules R56 and R57) -/

/-- The byte written to index `j`, if any. -/
def Memory.lookup : Memory → Nat → Option Byte
  | [], _          => none
  | (i, b) :: m, j => if i = j then some b else Memory.lookup m j

/-- `MemWrite(j, 1, v)`, keeping the indices strictly rising. -/
def Memory.write : Memory → Nat → Byte → Memory
  | [], j, v          => [(j, v)]
  | (i, b) :: m, j, v =>
    if j < i then (j, v) :: (i, b) :: m
    else if j = i then (j, v) :: m
    else (i, b) :: Memory.write m j v

/-- Every index of `m` is above `lo`, and they rise strictly. -/
def Memory.risesFrom (lo : Nat) : Memory → Bool
  | []          => true
  | (i, _) :: m => decide (lo < i) && Memory.risesFrom i m

/-- The canonical form. -/
def Memory.wf : Memory → Bool
  | []          => true
  | (i, _) :: m => Memory.risesFrom i m

/-- Every written index is one of SEQ's: below `SEQ_MAX` (R56). -/
def Memory.below (limit : Nat) (m : Memory) : Bool := m.all fun c => decide (c.1 < limit)

/-- The byte index `j` is known to hold. Written since the last reset, it is the byte written. Written before a reset and not
since, the spec does not agree with itself: kept (10_state.md rule R36, 70_reset_and_hazards.md rule R190, 95_test_vectors.md
P7) or a draw (20_memory.md rule R57, 93 U9, 92_eei_decisions.md D13, whose D26 calls a cleared SEQ "covered by the draw").
DESIGN CHOICE (log 19): which of the two is open, `seqKept`. -/
def State.known (s : State) (j : Nat) : Option Byte :=
  if s.seqOld.contains j && !s.seqKept then none else s.seq.lookup j

/-- `MemRead(j, 1)`. A byte that is not known is a draw (20_memory.md rule R57, 93 U9). -/
def State.memRead (s : State) (j : Half) : Byte :=
  match s.known j.toNat with
  | some b => b
  | none   => Config.seqDraw s.draws

/-- `MemWrite(j, 1, v)`: the byte is written since the last reset. -/
def State.memWrite (s : State) (j : Half) (v : Byte) : State :=
  { s with seq := s.seq.write j.toNat v, seqOld := s.seqOld.filter (· != j.toNat) }

/-! ## Rejection -/

/-- R149: "A rejected command or access has one effect, `rej <- 1`". -/
def State.reject (s : State) : State := { s with rej := true }

/-! ## Entries of engine states -/

/-- `beginByte(j)`, the entry of SET_DATA (41_handshake_engine.md rule R112). -/
def State.beginByte (s : State) (j : Half) : State :=
  { s with st := .setData, treq := .write s.params.dataAddr (s.memRead j) }

/-- SETTLE is entered with `cnt <- SETTLE_CYCLES` (R111, R113). -/
def State.enterSettle (s : State) : State := { s with st := .settle, cnt := s.params.settleCycles.val }

/-- Exit action of SETTLE (R114). -/
def State.enterStrobe (s : State) : State :=
  { s with st := .strobe, strobeQ := true, cnt := s.params.strobeCycles.val }

/-- Exit action of STROBE (R116). -/
def State.enterRelease (s : State) : State := { s with st := .release, strobeQ := false }

/-- Entry of POLL_WAIT with a poll count: RELEASE (R118) and RETRY (R142) with 0, an undecided poll (R123) with `p'`. -/
def State.enterPollWait (s : State) (p : Half) : State :=
  { s with st := .pollWait, cnt := s.params.pollCycles.val, polls := p }

/-- Exit action of POLL_WAIT (R119). -/
def State.enterPoll (s : State) : State := { s with st := .poll, treq := .read s.params.statusAddr }

/-! ## Ending a transfer, and the decision point -/

/-- `finish(code, phase, flags, k)` (60_exceptions.md rule R168). -/
def State.finish (s : State) (code : ResultCode) (phase : BitVec 1) (flags : DeviceFlags) (k : Half) : State :=
  { s with res := ⟨code, phase, flags, k⟩, treq := .none, st := .done }

/-- Entry into the decision point (60_exceptions.md rule R170; 41_handshake_engine.md rules R121 and R124). -/
def State.enterDecision (s : State) (reasons : FaultReasons) : State :=
  { s with st := .faultWait, fault := reasons }

/-- RETRY's return from the decision point, to source step 5 for the same byte (60_exceptions.md rule R171). -/
def State.resume (s : State) : State := s.enterPollWait 0#16

/-- ABORT's return from the decision point (42_host_commands.md rule R143), through `finish` (R168, log 13). -/
def State.abandon (s : State) : State :=
  if s.fault.timeout then s.finish .timeout 0#1 noFlags s.idx
  else s.finish .deviceFault 0#1 s.fault.flags s.idx

/-! ## The inputs of the current cycle -/

/-- `rst` and the host access of this cycle; past the list's end the pins are idle (log 4). -/
def State.pins (s : State) : HostPins :=
  match s.hostIn with
  | p :: _ => p
  | []     => ⟨false, .none⟩

/-- The answers the Transport may give to a request (20_memory.md rules R60 to R62): `NONE` always, `OK` or `BUSERR` to a write,
`OK(b)` or `BUSERR` to a read. -/
def Treq.allows : Treq → Tresp → Bool
  | _,          .none     => true
  | .none,      .ok       => false
  | .none,      .okByte _ => false
  | .none,      .busErr   => false
  | .write _ _, .ok       => true
  | .write _ _, .okByte _ => false
  | .write _ _, .busErr   => true
  | .read _,    .ok       => false
  | .read _,    .okByte _ => true
  | .read _,    .busErr   => true

/-- The request the Transport may answer in this cycle: the outstanding one, or "only in cycles with `treq = NONE`" one that
reset cut off (70_reset_and_hazards.md rule R191). -/
def State.owed (s : State) : Treq := if s.treq = .none then s.abandoned else s.treq

/-- What the Transport offers in this cycle; past the list's end it is a draw (93 U10). -/
def State.offered (s : State) : Tresp :=
  match s.trespIn with
  | t :: _ => t
  | []     => Config.transportDraw s.draws

/-- `tresp` in this cycle: the offer, where it is an answer to the request owed one (20_memory.md rule R62; log 3). -/
def State.tresp (s : State) : Tresp := if s.owed.allows s.offered then s.offered else .none

/-- The request still owed an answer after this cycle: "The Transport answers each request exactly once" (R62). -/
def State.stillOwed (s : State) : Treq :=
  if s.owed = .none then .none else if s.tresp = .none then s.owed else .none

/-! ## Reset and the passing of a cycle -/

/-- R190: every element takes its reset value. SEQ is unchanged, and all its written bytes are now from before the reset (log
19). The parameters, the inputs and the Transport are no elements. -/
def State.resetElements (s : State) : State :=
  { State.reset with
    seq := s.seq, params := s.params, hostIn := s.hostIn, trespIn := s.trespIn, draws := s.draws,
    seqOld := s.seq.map Prod.fst, seqKept := s.seqKept, abandoned := s.abandoned }

/-- The end of a cycle from `s` whose writes give `x`: the inputs are gone, the next draws are fresh (log 5), and a request that
`treq` no longer holds but the Transport still owes an answer is abandoned (70_reset_and_hazards.md rule R191); it "drops an
abandoned request" once a new one is outstanding. -/
def State.tick (s x : State) : State :=
  { x with
    hostIn := s.hostIn.tail, trespIn := s.trespIn.tail, draws := s.draws + 1,
    abandoned := if x.treq = .none then s.stillOwed else .none }

end Sys2Proof.Machine
end

