-- ==== Sys2Proof/Machine/Engine.lean ====
section
/-! DEFINITION. Machine/Engine.lean: `engineStep`, one rule of 41_handshake_engine.md for each state. -/
namespace Sys2Proof.Machine

/-- A timed state's cycle: `if cnt > 1 then cnt <- cnt - 1 else <exit action>` (R111). -/
def State.countDown (s : State) (exit : State) : State :=
  if 1#16 < s.cnt then { s with cnt := s.cnt - 1#16 } else exit

/-- SET_DATA (R113). With no answer to an outstanding write in hand the engine stays (log 7). -/
def stepSetData (s : State) : State :=
  match s.treq, s.tresp with
  | .write _ v, .ok     => { s with dataQ := some v, treq := .none }.enterSettle
  | .write _ _, .busErr => s.finish .busError 0#1 noFlags s.idx
  | _, _                => s

/-- SETTLE (R114). -/
def stepSettle (s : State) : State := s.countDown s.enterStrobe

/-- STROBE (R116). -/
def stepStrobe (s : State) : State := s.countDown s.enterRelease

/-- RELEASE (R118). -/
def stepRelease (s : State) : State := s.enterPollWait 0#16

/-- POLL_WAIT (R119). -/
def stepPollWait (s : State) : State := s.countDown s.enterPoll

/-- READY (R122): `idx <- k + 1`, then the end of the transfer or the next byte. -/
def pollReady (s : State) : Host.Outcome State Fault Refusal :=
  let k1 := s.idx + 1#16
  if k1 = s.len then .next ({ s with idx := k1 }.finish .ok 0#1 noFlags s.len)
  else if s.indexFits k1 then .next ({ s with idx := k1 }.beginByte k1)
  else .fault .seqIndexOutOfRange

/-- UNDECIDED: the timeout (R124) or a further poll (R123). -/
def pollUndecided (s : State) : State :=
  let p := nextPolls s.polls
  if boundReached s.params p then { s with polls := p }.enterDecision timeoutReasons
  else s.enterPollWait p

/-- A poll answered `OK(b)` (R120): the status is recorded, then classified from the answer in hand (R106). -/
def pollAnswered (s : State) (b : Byte) : Host.Outcome State Fault Refusal :=
  let ps := decodeStatus s.params b
  let r := { s with treq := .none, pstat := ps, pvalid := true }
  match classify s.params ps with
  | .fault f   => .next (r.enterDecision f.reasons)
  | .ready     => pollReady r
  | .undecided => .next (pollUndecided r)

/-- POLL (R120). With no answer to an outstanding read in hand the engine stays (log 7). -/
def stepPoll (s : State) : Host.Outcome State Fault Refusal :=
  match s.treq, s.tresp with
  | .read _, .okByte b => pollAnswered s b
  | .read _, .busErr   => .next (s.finish .busError 1#1 noFlags s.idx)
  | _, _               => .next s

/-- R110 (1): "the rule of the current `st`". -/
def engineStep (s : State) : Host.Outcome State Fault Refusal :=
  match s.st with
  | .idle      => .next s
  | .setData   => .next (stepSetData s)
  | .settle    => .next (stepSettle s)
  | .strobe    => .next (stepStrobe s)
  | .release   => .next (stepRelease s)
  | .pollWait  => .next (stepPollWait s)
  | .poll      => stepPoll s
  | .faultWait => .next s
  | .done      => .next s

end Sys2Proof.Machine
end

