-- ==== Sys2Proof/Machine/Decision.lean ====
section
/-! DEFINITION. Machine/Decision.lean: RETRY and ABORT, the returns from the decision point (42_host_commands.md). -/
namespace Sys2Proof.Machine

/-- RETRY (R142): "The byte `SEQ[idx]` is not written or strobed again." -/
def execRetry (s : State) : Host.Outcome State Fault Refusal :=
  .next (if s.st.atDecision then s.resume else s.reject)

/-- ABORT (R143). -/
def execAbort (s : State) : Host.Outcome State Fault Refusal :=
  .next (if s.st.atDecision then s.abandon else s.reject)

end Sys2Proof.Machine
end

