-- ==== Sys2Proof/Machine/Session.lean ====
section
/-! DEFINITION. Machine/Session.lean: NOP, SETLE, ACK and WRBUF (42_host_commands.md). Each meaning is the command's own effect
on the state at the start of the cycle; the engine's step of the same cycle is joined in Machine/Cycle.lean. -/
namespace Sys2Proof.Machine

/-- NOP (R140): "Effect: none." -/
def execNop (s : State) : Host.Outcome State Fault Refusal := .next s

/-- SETLE POL (R145). POL 3 is RESERVED (30_encoding.md rule R77 (c)) and rejected in every state (R148, log 17). -/
def execSetle (pol : BitVec 2) (s : State) : Host.Outcome State Fault Refusal :=
  .next (match LinePolicy.ofBits pol with
    | some p => if s.st.betweenTransfers then { s with policy := p } else s.reject
    | none   => s.reject)

/-- ACK (R146): `rej <- 0 ; if st == DONE then st <- IDLE`. -/
def execAck (s : State) : Host.Outcome State Fault Refusal :=
  .next (if s.st.betweenTransfers then { s with rej := false, st := .idle } else s.reject)

/-- WRBUF A, V (R147). -/
def execWrbuf (a : Half) (v : Byte) (s : State) : Host.Outcome State Fault Refusal :=
  .next (if s.st.betweenTransfers && s.indexFits a then s.memWrite a v else s.reject)

end Sys2Proof.Machine
end

