-- ==== Sys2Proof/Machine/Transfer.lean ====
section
/-! DEFINITION. Machine/Transfer.lean: SEND (42_host_commands.md rule R141). -/
namespace Sys2Proof.Machine

/-- `len <- N ; idx <- 0 ; fault <- 0b0000`, common to both cases of SEND. -/
def State.loadTransfer (s : State) (n : Half) : State := { s with len := n, idx := 0#16, fault := noReasons }

/-- SEND N (R141). An accepted SEND with `N >= 1` reads SEQ index 0, which exists because `SEQ_MAX >= 1`. -/
def execSend (n : Half) (s : State) : Host.Outcome State Fault Refusal :=
  .next (
    if s.st.betweenTransfers && s.lengthFits n then
      if n = 0#16 then { s.loadTransfer n with st := .done, res := ⟨.ok, 0#1, noFlags, 0#16⟩ }
      else { s.loadTransfer n with res := noResult }.beginByte 0#16
    else s.reject)

end Sys2Proof.Machine
end

