-- ==== Sys2Proof/Machine/Dispatch.lean ====
section
/-! DEFINITION. Machine/Dispatch.lean: one arm per command (42_host_commands.md). -/
namespace Sys2Proof.Machine

def exec (i : Instr) (s : State) : Host.Outcome State Fault Refusal :=
  match i with
  | .nop => Sys2Proof.Machine.execNop s
  | .send n => Sys2Proof.Machine.execSend n s
  | .retry => Sys2Proof.Machine.execRetry s
  | .abort => Sys2Proof.Machine.execAbort s
  | .setle pol => Sys2Proof.Machine.execSetle pol s
  | .ack => Sys2Proof.Machine.execAck s
  | .wrbuf a v => Sys2Proof.Machine.execWrbuf a v s

end Sys2Proof.Machine
end

