-- ==== Sys2Proof/Machine/Registers.lean ====
section
/-! DEFINITION. Machine/Registers.lean: the host-visible registers, views of the state (10_state.md section 3). -/
namespace Sys2Proof.Machine

inductive HostReg where
  | cmd
  | status
  | result
  | pstat
  | fault
  | len
deriving DecidableEq, Repr

/-- The register at a host address (20_memory.md rule R52); `none` for an unmapped or misaligned address. -/
def HostReg.ofAddr (a : HostAddr) : Option HostReg :=
  if a = 0x00#8 then some .cmd
  else if a = 0x04#8 then some .status
  else if a = 0x08#8 then some .result
  else if a = 0x0C#8 then some .pstat
  else if a = 0x10#8 then some .fault
  else if a = 0x14#8 then some .len
  else none

/-- One bit of a register (00_scope.md rule R8: true = 1). -/
def flag (b : Bool) : BitVec 1 := BitVec.ofBool b

/-- STATUS (R37). -/
def State.statusWord (s : State) : Word :=
  s.idx ++ 0#6 ++ flag s.autofeed ++ flag s.strobeQ ++ s.policy.code ++ flag s.rej ++ flag s.attn ++ s.st.code

/-- RESULT (R38). -/
def State.resultWord (s : State) : Word :=
  s.res.ridx ++ 0#9 ++ flag s.res.flags.err ++ flag s.res.flags.desel ++ flag s.res.flags.pe ++ s.res.phase ++ s.res.code.code

/-- PSTAT (R39). -/
def State.pstatWord (s : State) : Word :=
  0#23 ++ flag s.pvalid ++ 0#3 ++ flag s.pstat.error ++ flag s.pstat.select ++ flag s.pstat.paperEnd ++ flag s.pstat.busy ++
    flag s.pstat.ack

/-- FAULT (R40). -/
def State.faultWord (s : State) : Word :=
  0#28 ++ flag s.fault.timeout ++ flag s.fault.err ++ flag s.fault.desel ++ flag s.fault.pe

/-- LEN (R41). -/
def State.lenWord (s : State) : Word := 0#16 ++ s.len

/-- CMD reads 0 (R42). -/
def State.readReg (s : State) : HostReg → Word
  | .cmd    => 0#32
  | .status => s.statusWord
  | .result => s.resultWord
  | .pstat  => s.pstatWord
  | .fault  => s.faultWord
  | .len    => s.lenWord

/-- The value of `Read(a)` (20_memory.md rules R53 and R54): the register at the start of the cycle, 0 where none is
(log 10). -/
def State.hostRead (s : State) (a : HostAddr) : Word :=
  match HostReg.ofAddr a with
  | some r => s.readReg r
  | none   => 0#32

end Sys2Proof.Machine
end

