-- ==== Sys2Proof/Machine/HostPort.lean ====
section
/-! DEFINITION. Machine/HostPort.lean: the host access of a cycle (20_memory.md rules R53 and R54). -/
namespace Sys2Proof.Machine

/-- A word written to CMD: a command, or RESERVED and rejected (42_host_commands.md rule R148). -/
def command (w : Word) (s : State) : Host.Outcome State Fault Refusal :=
  match decode w with
  | .ok i    => exec i s
  | .error _ => .next s.reject

/-- `Write(a, v)`: only CMD is writable; a misaligned, unmapped or read-only address is rejected (R54). -/
def hostWrite (a : HostAddr) (v : Word) (s : State) : Host.Outcome State Fault Refusal :=
  if HostReg.ofAddr a = some .cmd then command v s else .next s.reject

/-- R53: a `Read` "has no side effect on any state". -/
def hostAccess (acc : HostAccess) (s : State) : Host.Outcome State Fault Refusal :=
  match acc with
  | .none      => .next s
  | .read _    => .next s
  | .write a v => hostWrite a v s

end Sys2Proof.Machine
end

