-- ==== Sys2Proof/Machine/Cycle.lean ====
section
/-! DEFINITION. Machine/Cycle.lean: one clock cycle (41_handshake_engine.md rule R110; 70_reset_and_hazards.md rule R190), and how a
command comes onto the pins. -/
namespace Sys2Proof.Machine

/-- The writes of the engine (`e`) and of the host (`h`) in one cycle from `s`, taken together at its end (R110): "The two never
write the same element". In an inert state the engine writes nothing (R125); in any other, only the host's `rej`, `policy`
and `SEQ`, which "the host alone writes", can differ from `s` (log 9). -/
def State.join (s e h : State) : State :=
  if s.st.inert then h else { e with rej := h.rej, policy := h.policy, seq := h.seq, seqOld := h.seqOld }

/-- A cycle with `rst = 0` (R110): both parts read the values of its start. -/
def runCycle (s : State) : Host.Outcome State Fault Refusal :=
  match engineStep s with
  | .fault r   => .fault r
  | .refused r => .refused r
  | .next e    =>
    match hostAccess s.pins.access s with
    | .fault r   => .fault r
    | .refused r => .refused r
    | .next h    => .next (s.tick (s.join e h))

/-- A cycle: "Reset comes before everything" (60_exceptions.md rule R173 (1)); any host access of a reset cycle is ignored (R190). -/
def clockCycle (s : State) : Host.Outcome State Fault Refusal :=
  if s.pins.rst then .next (s.tick s.resetElements) else runCycle s

/-- The host writes the word `w` to CMD in the coming cycle (20_memory.md rules R52 and R53), in place of what the pins held. -/
def State.withCommand (s : State) (w : Word) : State :=
  { s with hostIn := ⟨false, .write 0x00#8 w⟩ :: s.hostIn.tail }

end Sys2Proof.Machine
end

