-- ==== Sys2Proof/Machine/Step.lean ====
section
/-! DEFINITION. Machine/Step.lean: one step is one clock cycle (00_scope.md rule R10). -/
namespace Sys2Proof.Machine

def step (s : State) : Host.Outcome State Fault Refusal := clockCycle s

/-- The table word `w` as the command of the coming cycle (log 4). -/
def State.withFetchWord (s : State) (nbits w : Nat) : State := s.withCommand (BitVec.ofNat 32 (w % 2 ^ nbits))

end Sys2Proof.Machine
end

