-- ==== Sys2Proof/Machine/Assembler.lean ====
section
/-! DEFINITION. Machine/Assembler.lean: the host's program notation (30_encoding.md rules R80 to R82): commands,
pseudo-instructions and host-side accesses, and their text (log 15). -/
namespace Sys2Proof.Machine

/-- A command or pseudo-instruction as written, its integers not yet range-checked (R80, R81). -/
inductive AsmCmd where
  | nop
  | send (n : Nat)
  | retry
  | abort
  | setle (p : LinePolicy)
  | ack
  | wrbuf (a v : Nat)
  | loadbuf (a : Nat) (vs : List Nat)
  | print (vs : List Nat)
  | clrrej
deriving DecidableEq, Repr

/-- A line of a host program (R80, R82). -/
inductive HostLine where
  | cmd (c : AsmCmd)
  | rd (a : Nat)
  | waitAttn
  | wr (a v : Nat)
deriving DecidableEq, Repr

inductive AsmError where
  /-- "An operand out of range is an assembly error, and it is never truncated" (R80). -/
  | operandRange
  /-- Not one of the forms of R80 to R82. -/
  | form
deriving DecidableEq, Repr

/-! ## Operands and expansions -/

/-- An operand of `m` bits. -/
def operand (m n : Nat) : Except AsmError (BitVec m) :=
  if n < 2 ^ m then .ok (BitVec.ofNat m n) else .error .operandRange

def asmWrbuf (a v : Nat) : Except AsmError Instr :=
  match operand 16 a, operand 8 v with
  | .ok a', .ok v' => .ok (.wrbuf a' v')
  | _, _           => .error .operandRange

def asmSend (n : Nat) : Except AsmError Instr :=
  match operand 16 n with
  | .ok n'   => .ok (.send n')
  | .error e => .error e

/-- `WRBUF a, v0 ; WRBUF a+1, v1 ; ...` (R81: "needs `a+k <= 65535`"). -/
def asmBytes (a : Nat) : List Nat → Except AsmError (List Instr)
  | []      => .ok []
  | v :: vs =>
    match asmWrbuf a v, asmBytes (a + 1) vs with
    | .ok i, .ok is => .ok (i :: is)
    | .error e, _   => .error e
    | _, .error e   => .error e

/-- The commands of a line (R80), a pseudo-instruction expanded (R81). LOADBUF and PRINT are written with at least one byte. -/
def assemble : AsmCmd → Except AsmError (List Instr)
  | .nop          => .ok [.nop]
  | .send n       => (asmSend n).map fun i => [i]
  | .retry        => .ok [.retry]
  | .abort        => .ok [.abort]
  | .setle p      => .ok [.setle p.code]
  | .ack          => .ok [.ack]
  | .wrbuf a v    => (asmWrbuf a v).map fun i => [i]
  | .loadbuf a vs => if vs.isEmpty then .error .form else asmBytes a vs
  | .print vs     =>
    if vs.isEmpty then .error .form
    else match asmBytes 0 vs, asmSend vs.length with
      | .ok is, .ok i => .ok (is ++ [i])
      | .error e, _   => .error e
      | _, .error e   => .error e
  | .clrrej       => .ok [.ack]

/-- The host access of a line that makes one access (R82): `WR 0x00, w` is "the same as writing the command `w`". A line of a
command that expands to one word makes one access; an expansion is one access for each word. -/
def HostLine.accesses : HostLine → Except AsmError (List HostAccess)
  | .cmd c    => (assemble c).map fun is => is.map fun i => .write 0x00#8 (encode i)
  | .rd a     => (operand 8 a).map fun a' => [.read a']
  | .waitAttn => .ok [.read 0x04#8]
  | .wr a v   =>
    match operand 8 a, operand 32 v with
    | .ok a', .ok v' => .ok [.write a' v']
    | _, _           => .error .operandRange

/-- `WAIT ATTN` "repeats `RD STATUS` until bit 4 is 1" (R82): whether the read made now is the last. -/
def State.waitAttnDone (s : State) : Bool := (s.hostRead 0x04#8).getLsbD 4

/-! ## Text (R80) -/

/-- The text before a `;`. -/
def dropComment : List Char → List Char
  | []      => []
  | c :: cs => if c = ';' then [] else c :: dropComment cs

/-- Words and commas; `cur` is the word being read, last letter first. -/
def tokensFrom (cur : List Char) : List Char → List (List Char)
  | []      => if cur.isEmpty then [] else [cur.reverse]
  | c :: cs =>
    let done := if cur.isEmpty then [] else [cur.reverse]
    if c = ',' then done ++ [','] :: tokensFrom [] cs
    else if c = ' ' ∨ c = '\t' then done ++ tokensFrom [] cs
    else tokensFrom (c :: cur) cs

def digitIn (base : Nat) (c : Char) : Option Nat :=
  let d :=
    if '0' ≤ c ∧ c ≤ '9' then c.toNat - '0'.toNat
    else if 'a' ≤ c ∧ c ≤ 'f' then c.toNat - 'a'.toNat + 10
    else if 'A' ≤ c ∧ c ≤ 'F' then c.toNat - 'A'.toNat + 10
    else 16
  if d < base then some d else none

def numberFrom (base acc : Nat) : List Char → Option Nat
  | []      => some acc
  | c :: cs =>
    match digitIn base c with
    | some d => numberFrom base (base * acc + d) cs
    | none   => none

/-- An integer "written in decimal or with `0x`". -/
def number : List Char → Option Nat
  | []                    => none
  | '0' :: 'x' :: c :: cs => numberFrom 16 0 (c :: cs)
  | c :: cs               => numberFrom 10 0 (c :: cs)

/-- Integers separated by commas. -/
def numbers : List (List Char) → Option (List Nat)
  | []               => none
  | [t]              => (number t).map fun n => [n]
  | t :: c :: ts     =>
    if c = [','] then
      match number t, numbers ts with
      | some n, some ns => some (n :: ns)
      | _, _            => none
    else none

/-- The register names of `RD` (R82), at their addresses (20_memory.md rule R52), or a written address. -/
def readTarget (t : List Char) : Option Nat :=
  if t = ['S', 'T', 'A', 'T', 'U', 'S'] then some 0x04
  else if t = ['R', 'E', 'S', 'U', 'L', 'T'] then some 0x08
  else if t = ['P', 'S', 'T', 'A', 'T'] then some 0x0C
  else if t = ['F', 'A', 'U', 'L', 'T'] then some 0x10
  else if t = ['L', 'E', 'N'] then some 0x14
  else number t

def policyName (t : List Char) : Option LinePolicy :=
  if t = ['N', 'O', 'N', 'E'] then some .none
  else if t = ['H', 'A', 'R', 'D'] then some .hard
  else if t = ['S', 'O', 'F', 'T'] then some .soft
  else none

/-- A line with its integer operands. -/
def withNumbers (m : List Char) (ns : List Nat) : Option HostLine :=
  if m = ['L', 'O', 'A', 'D', 'B', 'U', 'F'] then
    match ns with
    | a :: v :: vs => some (.cmd (.loadbuf a (v :: vs)))
    | _            => none
  else if m = ['P', 'R', 'I', 'N', 'T'] then some (.cmd (.print ns))
  else match ns with
    | [n]    => if m = ['S', 'E', 'N', 'D'] then some (.cmd (.send n)) else none
    | [a, v] =>
      if m = ['W', 'R', 'B', 'U', 'F'] then some (.cmd (.wrbuf a v))
      else if m = ['W', 'R'] then some (.wr a v)
      else none
    | _      => none

/-- A line's words; an empty line is no line. -/
def parseTokens : List (List Char) → Except AsmError (Option HostLine)
  | []      => .ok none
  | [m]     =>
    if m = ['N', 'O', 'P'] then .ok (some (.cmd .nop))
    else if m = ['R', 'E', 'T', 'R', 'Y'] then .ok (some (.cmd .retry))
    else if m = ['A', 'B', 'O', 'R', 'T'] then .ok (some (.cmd .abort))
    else if m = ['A', 'C', 'K'] then .ok (some (.cmd .ack))
    else if m = ['C', 'L', 'R', 'R', 'E', 'J'] then .ok (some (.cmd .clrrej))
    else .error .form
  | m :: ts =>
    if m = ['W', 'A', 'I', 'T'] then
      if ts = [['A', 'T', 'T', 'N']] then .ok (some .waitAttn) else .error .form
    else if m = ['S', 'E', 'T', 'L', 'E'] then
      match ts with
      | [t] => ((policyName t).map fun p => .ok (some (.cmd (.setle p)))).getD (.error .form)
      | _   => .error .form
    else if m = ['R', 'D'] then
      match ts with
      | [t] => ((readTarget t).map fun a => .ok (some (.rd a))).getD (.error .form)
      | _   => .error .form
    else
      match (numbers ts).bind (withNumbers m) with
      | some l => .ok (some l)
      | none   => .error .form

/-- One line of a host program. -/
def parseLine (text : List Char) : Except AsmError (Option HostLine) := parseTokens (tokensFrom [] (dropComment text))

end Sys2Proof.Machine
end

