-- ==== Sys2Proof/Machine/Timing.lean ====
section
/-! DEFINITION. Machine/Timing.lean: the cycle counts and time values of 70_reset_and_hazards.md rules R204 and R205. No rule of the
block reads them. -/
namespace Sys2Proof.Machine

/-- Cycles of one byte with write latency `lw` and one poll of read latency `lr` (R204). -/
def byteCycles (p : Params) (lw lr : Nat) : Nat :=
  lw + p.settleCycles.toNat + p.strobeCycles.toNat + 1 + p.pollCycles.toNat + lr

/-- Cycles an additional undecided poll adds (R204). -/
def undecidedCycles (p : Params) (lr : Nat) : Nat := p.pollCycles.toNat + lr

/-- Cycles from an accepted `SEND N` to DONE, every first poll READY (R204). -/
def transferCycles (p : Params) (n lw lr : Nat) : Nat := n * byteCycles p lw lr

/-- "`F_CLK` ... converts cycle counts to time only" (00_scope.md rule R6): `n` cycles last `t` seconds. -/
def lastsSeconds (n : Nat) (f : Frequency) (t : ℝ) : Prop := t * f.hz = n

/-- The settle interval, the strobe pulse and the poll interval last `t` seconds (R205). -/
def settleLasts (p : Params) (f : Frequency) (t : ℝ) : Prop := lastsSeconds p.settleCycles.toNat f t
def strobeLasts (p : Params) (f : Frequency) (t : ℝ) : Prop := lastsSeconds p.strobeCycles.toNat f t
def pollLasts (p : Params) (f : Frequency) (t : ℝ) : Prop := lastsSeconds p.pollCycles.toNat f t

end Sys2Proof.Machine
end

