-- ==== Sys2Proof/Safety.lean ====
section
/-! DEFINITION. Safety.lean: the terms the statements use: the invariant of 10_state.md rule R45, the acceptance table of
42_host_commands.md rule R149, the scripts of 41_handshake_engine.md rule R126, the strobed bytes of 10_state.md rule R44, and what hides the carried byte values
(41_handshake_engine.md rule R128). -/
namespace Sys2Proof.Machine

/-! ## The invariant -/

/-- `st` is one of the states of a transfer in progress: all but IDLE and DONE. -/
def EngineState.inTransfer (st : EngineState) : Bool := !st.betweenTransfers

/-- `v` is `SEQ[idx]`; a byte that is not known may be any (20_memory.md rule R57). -/
def State.isCurrentByte (s : State) (v : Byte) : Prop := ∀ b, s.known s.idx.toNat = some b → v = b

/-- The duration of a timed state (41_handshake_engine.md rule R111). -/
def timedCycles (p : Params) : EngineState → Option Count
  | .settle    => some p.settleCycles
  | .strobe    => some p.strobeCycles
  | .pollWait  => some p.pollCycles
  | .idle      => none
  | .setData   => none
  | .release   => none
  | .poll      => none
  | .faultWait => none
  | .done      => none

/-- The invariants that tie the elements together (10_state.md rule R45, with the rules named at the fields; log 18). -/
structure State.Inv (s : State) : Prop where
  /-- SEQ is canonical and its indices are below `SEQ_MAX` (20_memory.md rule R56). -/
  seqWf       : s.seq.wf = true
  seqBelow    : s.seq.below s.params.seqMax.toNat = true
  /-- The old indices are among the written ones, in their order (log 19). -/
  seqOldSub   : s.seqOld.Sublist (s.seq.map Prod.fst)
  /-- R24 -/
  lenFits     : s.len.toNat ≤ s.params.seqMax.toNat
  /-- The `idx` column of R45. -/
  idxBelow    : s.st.inTransfer = true → s.idx.toNat < s.len.toNat
  idxDone     : s.st = .done → s.idx.toNat ≤ s.len.toNat
  /-- The `treq` column of R45 (R35). -/
  reqWrite    : s.st = .setData → ∃ v, s.treq = .write s.params.dataAddr v ∧ s.isCurrentByte v
  reqRead     : s.st = .poll → s.treq = .read s.params.statusAddr
  reqNone     : s.st ≠ .setData → s.st ≠ .poll → s.treq = .none
  /-- An abandoned request is dropped when a new one is outstanding (70_reset_and_hazards.md rule R191). -/
  abandonedAlone : s.treq ≠ .none → s.abandoned = .none
  /-- The `strobe_q` column of R45 (R28). -/
  strobe      : s.strobeQ = true ↔ s.st = .strobe
  /-- The `cnt` column of R45: 1 to the duration of the timed state. -/
  cnt         : ∀ c, timedCycles s.params s.st = some c → 1 ≤ s.cnt.toNat ∧ s.cnt.toNat ≤ c.toNat
  /-- From the answered write to the end of the byte, the data register holds `SEQ[idx]` (41_handshake_engine.md rule R115,
  60_exceptions.md rule R170). -/
  data        : s.st.inTransfer = true → s.st ≠ .setData → ∃ v, s.dataQ = some v ∧ s.isCurrentByte v
  /-- Below the bound while polling goes on (41_handshake_engine.md rules R123 and R124). -/
  polls       : s.st = .pollWait ∨ s.st = .poll → s.params.maxPolls ≠ 0#16 → s.polls.toNat < s.params.maxPolls.toNat
  /-- The fields of `res` (R33, 60_exceptions.md rule R166). -/
  resNone     : s.res.code = .none → s.res = noResult
  resPhase    : s.res.code ≠ .busError → s.res.phase = 0#1
  resFlags    : s.res.code = .deviceFault ↔ s.res.flags ≠ noFlags
  /-- `res` is NONE during a transfer (R33, 60_exceptions.md rule R170). -/
  resTransfer : s.st.inTransfer = true → s.res = noResult
  /-- In DONE it names an end; `ridx` is `len` for OK, and else the byte being worked on (R33). -/
  resDone     : s.st = .done → s.res.code ≠ .none ∧ s.res.ridx = s.idx ∧ (s.res.code = .ok → s.idx = s.len) ∧
    (s.res.code ≠ .ok → s.idx.toNat < s.len.toNat)
  /-- A timeout stands alone, and the decision point has a reason (60_exceptions.md rule R166). -/
  toAlone     : s.fault.timeout = true → s.fault.flags = noFlags
  reasons     : s.st = .faultWait → s.fault ≠ noReasons
  /-- No status before the first answered poll (R31). -/
  status      : s.pvalid = false → s.pstat = ⟨false, false, false, false, false⟩

/-! ## Acceptance (42_host_commands.md rule R149) -/

/-- The acceptance table, with the operand checks. A SETLE with POL 3 is RESERVED and never accepted. -/
def acceptedIn (s : State) : Instr → Prop
  | .nop       => True
  | .send n    => (s.st = .idle ∨ s.st = .done) ∧ n.toNat ≤ s.params.seqMax.toNat
  | .retry     => s.st = .faultWait
  | .abort     => s.st = .faultWait
  | .setle pol => (s.st = .idle ∨ s.st = .done) ∧ pol ≠ 3#2
  | .ack       => s.st = .idle ∨ s.st = .done
  | .wrbuf a _ => (s.st = .idle ∨ s.st = .done) ∧ a.toNat < s.params.seqMax.toNat

/-! ## What happens in a cycle -/

/-- The host writes the command `i` in this cycle, and `rst` is 0. -/
def State.issues (s : State) (i : Instr) : Prop :=
  s.pins.rst = false ∧ ∃ w, s.pins.access = .write 0x00#8 w ∧ decode w = .ok i

/-- The host's write of this cycle is refused: a rejected command or access (42_host_commands.md rule R149), with `rst` 0. -/
def State.rejects (s : State) : Prop :=
  s.pins.rst = false ∧ ∃ a w, s.pins.access = .write a w ∧
    (a ≠ 0x00#8 ∨ (∃ r, decode w = .error r) ∨ ∃ i, decode w = .ok i ∧ ¬ acceptedIn s i)

/-- A poll is answered in this cycle with a status classified `c`, and `rst` is 0. -/
def State.pollsAs (s : State) (c : Classification) : Prop :=
  s.pins.rst = false ∧ s.st = .poll ∧ s.treq = .read s.params.statusAddr ∧
    ∃ b, s.tresp = .okByte b ∧ classify s.params (decodeStatus s.params b) = c

/-- This cycle accepts a SEND. -/
def State.startsTransfer (s : State) : Bool :=
  !s.pins.rst &&
  match s.pins.access with
  | .write a w =>
    match decode w with
    | .ok (.send n) => a == 0x00#8 && s.st.betweenTransfers && s.lengthFits n
    | _             => false
  | _ => false

/-- This cycle's poll is classified READY. -/
def State.seesReady (s : State) : Bool :=
  !s.pins.rst && s.st == .poll && s.treq == .read s.params.statusAddr &&
  match s.tresp with
  | .okByte b => classify s.params (decodeStatus s.params b) == .ready
  | _         => false

/-! ## Runs -/

/-- No reset in the next `n` cycles. -/
def State.noResetFor (s : State) (n : Nat) : Prop := ∀ p ∈ s.hostIn.take n, p.rst = false

/-- Where the exit action of a timed state goes (rules R114, R116, R119). -/
def EngineState.afterTimed : EngineState → EngineState
  | .settle    => .strobe
  | .strobe    => .release
  | .pollWait  => .poll
  | .idle      => .idle
  | .setData   => .setData
  | .release   => .release
  | .poll      => .poll
  | .faultWait => .faultWait
  | .done      => .done

/-! ## Scripts of a transfer (41_handshake_engine.md rule R126)

What the Transport offers, cycle by cycle, through a byte that ends READY. What it offers in the cycles of no request (`filler`)
is free. -/

/-- One poll round: the cycles of POLL_WAIT, `late` cycles of POLL without an answer, and the answered one. -/
structure PollScript where
  filler : List Tresp
  late   : Nat
  status : Byte
deriving DecidableEq, Repr

def PollScript.offers (r : PollScript) : List Tresp := r.filler ++ List.replicate r.late .none ++ [.okByte r.status]

/-- `Q + Lr_i`, with `Lr_i` one more than `late` (R126). -/
def PollScript.cycles (p : Params) (r : PollScript) : Nat := p.pollCycles.toNat + (r.late + 1)

/-- The round lasts `POLL_CYCLES` in POLL_WAIT and its status is classified `c`. -/
def PollScript.endsAs (p : Params) (c : Classification) (r : PollScript) : Prop :=
  r.filler.length = p.pollCycles.toNat ∧ classify p (decodeStatus p r.status) = c

/-- One byte: `late` cycles of SET_DATA without an answer and the answered one, the cycles of SETTLE, STROBE and RELEASE, the
undecided poll rounds, and the last one. -/
structure ByteScript where
  late      : Nat
  filler    : List Tresp
  undecided : List PollScript
  last      : PollScript
deriving DecidableEq, Repr

def ByteScript.rounds (b : ByteScript) : List PollScript := b.undecided ++ [b.last]

def ByteScript.offers (b : ByteScript) : List Tresp :=
  List.replicate b.late .none ++ [.ok] ++ b.filler ++ b.rounds.flatMap PollScript.offers

/-- `Lw + S + P + 1`, with `Lw` one more than `late`: the cycles before the first poll round (R126). -/
def ByteScript.pollsStart (p : Params) (b : ByteScript) : Nat :=
  b.late + 1 + p.settleCycles.toNat + p.strobeCycles.toNat + 1

/-- `sum (Q + Lr_i)` (R126). -/
def roundCycles (p : Params) (rs : List PollScript) : Nat := (rs.map (PollScript.cycles p)).sum

/-- `Lw + S + P + 1 + sum (Q + Lr_i)` (R126). -/
def ByteScript.cycles (p : Params) (b : ByteScript) : Nat := b.pollsStart p + roundCycles p b.rounds

/-- The script's parts have the lengths the parameters give, and its last poll, within the bound, is its first READY one. -/
def ByteScript.plays (p : Params) (b : ByteScript) : Prop :=
  b.filler.length = p.settleCycles.toNat + p.strobeCycles.toNat + 1 ∧
  (∀ r ∈ b.undecided, r.endsAs p .undecided) ∧ b.last.endsAs p .ready ∧
  (p.maxPolls = 0#16 ∨ b.undecided.length < p.maxPolls.toNat)

/-- The cycles of several bytes, one after another. -/
def scriptCycles (p : Params) (bs : List ByteScript) : Nat := (bs.map (ByteScript.cycles p)).sum

/-! ## The strobed bytes (10_state.md rule R44) -/

/-- A state with the indices strobed and the indices whose poll was READY since the last accepted SEND, oldest first. -/
structure Traced where
  state   : State
  strobed : List Nat
  readied : List Nat
deriving DecidableEq, Repr

/-- "Call byte `j` *strobed* once the engine has entered STROBE for it." -/
def Traced.next (t : Traced) (s' : State) : Traced where
  state   := s'
  strobed :=
    if t.state.pins.rst || t.state.startsTransfer then []
    else if s'.st = .strobe ∧ t.state.st ≠ .strobe then t.strobed ++ [t.state.idx.toNat]
    else t.strobed
  readied :=
    if t.state.pins.rst || t.state.startsTransfer then []
    else if t.state.seesReady then t.readied ++ [t.state.idx.toNat]
    else t.readied

/-- How many bytes R44 says are strobed; it says nothing of IDLE. -/
def State.strobedCount (s : State) : Option Nat :=
  match s.st with
  | .idle      => none
  | .setData   => some s.idx.toNat
  | .settle    => some s.idx.toNat
  | .strobe    => some (s.idx.toNat + 1)
  | .release   => some (s.idx.toNat + 1)
  | .pollWait  => some (s.idx.toNat + 1)
  | .poll      => some (s.idx.toNat + 1)
  | .faultWait => some (s.idx.toNat + 1)
  | .done      =>
    match s.res.code with
    | .none        => none
    | .ok          => some s.res.ridx.toNat
    | .busError    => some (if s.res.phase = 0#1 then s.res.ridx.toNat else s.res.ridx.toNat + 1)
    | .deviceFault => some (s.res.ridx.toNat + 1)
    | .timeout     => some (s.res.ridx.toNat + 1)

/-- R44: the strobed bytes are exactly those of its list, in order and none twice, and each byte below `idx` had its READY poll. -/
def Traced.exact (t : Traced) : Prop :=
  t.state.st ≠ .idle →
    ∃ n, t.state.strobedCount = some n ∧ t.strobed = List.range n ∧ t.readied = List.range t.state.idx.toNat

/-! ## Byte values (41_handshake_engine.md rule R128) -/

/-- SEQ with its written indices and no values. -/
def Memory.hideBytes (m : Memory) : Memory := m.map fun c => (c.1, 0#8)

def Treq.hideBytes : Treq → Treq
  | .write a _ => .write a 0#8
  | .read a    => .read a
  | .none      => .none

/-- A state without the values of the bytes it carries. -/
def State.hideBytes (s : State) : State :=
  { s with
    seq := s.seq.hideBytes, treq := s.treq.hideBytes, abandoned := s.abandoned.hideBytes,
    dataQ := s.dataQ.map fun _ => 0#8 }

end Sys2Proof.Machine
end

