-- ==== Sys2Proof/Certificates/Slice0/Obligations.lean ====
section
/-! DEFINITION. Certificates/Slice0/Obligations.lean: the statements for the provers. Each docstring names the rule it formalises. -/
open Sys2Proof Sys2Proof.Machine

/-! ## Encoding (30_encoding.md) -/

/-- R71 to R76: decoding the encoding of a well-formed command gives it back, with every operand at every value. -/
def Obligations.DecodeOfEncode : Prop :=
  ∀ i : Instr, i.wellFormed = true → decode (encode i) = .ok i

/-- R79: a word that decodes is the encoding of its command, which is well-formed: no word has two meanings and no bit of it is
dropped. -/
def Obligations.EncodeOfDecode : Prop :=
  ∀ (w : Word) (i : Instr), decode w = .ok i → encode i = w ∧ i.wellFormed = true

/-- R77: exactly the words of (a), (b) and (c) are reserved, and a reserved word's only effect is `rej <- 1`. -/
def Obligations.ReservedWordsExactly : Prop :=
  (∀ w : Word, (∃ r, decode w = .error r) ↔
    (7#4 ≤ bits 31 28 w) ∨
    ((bits 31 28 w = 0#4 ∨ bits 31 28 w = 2#4 ∨ bits 31 28 w = 3#4 ∨ bits 31 28 w = 5#4) ∧ bits 27 0 w ≠ 0#28) ∨
    (bits 31 28 w = 1#4 ∧ bits 27 16 w ≠ 0#12) ∨
    (bits 31 28 w = 4#4 ∧ bits 27 2 w ≠ 0#26) ∨
    (bits 31 28 w = 6#4 ∧ bits 27 24 w ≠ 0#4) ∨
    (bits 31 28 w = 4#4 ∧ bits 1 0 w = 3#2)) ∧
  (∀ (w : Word) (r : ReservedReason) (s : State), decode w = .error r → command w s = .next { s with rej := true }) ∧
  decode 0x00000000#32 = .ok .nop ∧
  (∃ r, decode 0xFFFFFFFF#32 = .error r) ∧ (∃ r, decode 0x00000001#32 = .error r)

/-- R76: a word decodes to a command of a row exactly if it has the row's fixed bits and meets its extra condition. -/
def Obligations.OpcodeMapIsTheDecoder : Prop :=
  (∀ (w : Word) (i : Instr), decode w = .ok i → i.row ∈ opcodeMap ∧ i.row.matchesWord w = true) ∧
  (∀ (w : Word) (r : OpcodeRow), r ∈ opcodeMap → r.matchesWord w = true → ∃ i, decode w = .ok i ∧ i.row = r) ∧
  (∀ w : Word, 7#4 ≤ bits 31 28 w → ∃ r, decode w = .error r)

/-- R83: the encoding check values, from the assembler's notation. -/
def Obligations.EncodingCheckValues : Prop :=
  (assemble .nop).map (·.map encode) = .ok [0x00000000#32] ∧
  (assemble (.send 3)).map (·.map encode) = .ok [0x10000003#32] ∧
  (assemble (.send 65535)).map (·.map encode) = .ok [0x1000FFFF#32] ∧
  (assemble .retry).map (·.map encode) = .ok [0x20000000#32] ∧
  (assemble .abort).map (·.map encode) = .ok [0x30000000#32] ∧
  (assemble (.setle .none)).map (·.map encode) = .ok [0x40000000#32] ∧
  (assemble (.setle .hard)).map (·.map encode) = .ok [0x40000001#32] ∧
  (assemble (.setle .soft)).map (·.map encode) = .ok [0x40000002#32] ∧
  (assemble .ack).map (·.map encode) = .ok [0x50000000#32] ∧
  (assemble (.wrbuf 0 0x1B)).map (·.map encode) = .ok [0x6000001B#32] ∧
  (assemble (.wrbuf 1 0x40)).map (·.map encode) = .ok [0x60000140#32] ∧
  (assemble (.wrbuf 0x1234 0xFF)).map (·.map encode) = .ok [0x601234FF#32]

/-- 95_test_vectors.md section 2.2: words written out from the formats decode to the commands they stand for. -/
def Obligations.WordsDecodeAsWritten : Prop :=
  decode 0x1000FFFF#32 = .ok (.send 65535#16) ∧ decode 0x20000000#32 = .ok .retry ∧ decode 0x30000000#32 = .ok .abort ∧
  decode 0x40000002#32 = .ok (.setle 2#2) ∧ decode 0x50000000#32 = .ok .ack ∧
  decode 0x601234FF#32 = .ok (.wrbuf 0x1234#16 0xFF#8) ∧ decode 0x10010000#32 = .error .mustBeZero ∧
  decode 0x40000003#32 = .error .policy ∧ decode 0x70000000#32 = .error .opcode

/-- R80: operands in range are encoded as they are; an operand out of range is an error and is never truncated. -/
def Obligations.OperandsNeverTruncated : Prop :=
  (∀ n : Nat, n ≤ 65535 → ∃ n' : Half, n'.toNat = n ∧ assemble (.send n) = .ok [.send n']) ∧
  (∀ n : Nat, 65535 < n → assemble (.send n) = .error .operandRange) ∧
  (∀ a v : Nat, a ≤ 65535 → v ≤ 255 →
    ∃ (a' : Half) (v' : Byte), a'.toNat = a ∧ v'.toNat = v ∧ assemble (.wrbuf a v) = .ok [.wrbuf a' v']) ∧
  (∀ a v : Nat, 65535 < a ∨ 255 < v → assemble (.wrbuf a v) = .error .operandRange)

/-- R81: the pseudo-instructions and their expansions. An expansion with an operand out of range (R80) is an assembly error: a byte
above 255, an index above 65535, or a SEND of more than 65535 bytes. -/
def Obligations.PseudoInstructionsExpand : Prop :=
  (∀ (a : Nat) (vs : List Nat), vs ≠ [] → (∀ v ∈ vs, v ≤ 255) → a + (vs.length - 1) ≤ 65535 →
    assemble (.loadbuf a vs) = .ok (vs.mapIdx fun j v => .wrbuf (BitVec.ofNat 16 (a + j)) (BitVec.ofNat 8 v))) ∧
  (∀ (a : Nat) (vs : List Nat), vs ≠ [] → (∀ v ∈ vs, v ≤ 255) → 65535 < a + (vs.length - 1) →
    assemble (.loadbuf a vs) = .error .operandRange) ∧
  (∀ vs : List Nat, vs ≠ [] → (∀ v ∈ vs, v ≤ 255) → vs.length ≤ 65535 →
    ∃ is, assemble (.loadbuf 0 vs) = .ok is ∧
      assemble (.print vs) = .ok (is ++ [.send (BitVec.ofNat 16 vs.length)])) ∧
  (∀ vs : List Nat, 65535 < vs.length → assemble (.print vs) = .error .operandRange) ∧
  (∀ (a : Nat) (vs : List Nat), (∃ v ∈ vs, 255 < v) →
    assemble (.loadbuf a vs) = .error .operandRange ∧ assemble (.print vs) = .error .operandRange) ∧
  assemble .clrrej = assemble .ack

/-! ## Host commands (42_host_commands.md) -/

/-- R140: NOP completes in every state with no effect, the engine's step of the cycle going on; `OP = 0` with other bits set is
RESERVED. -/
def Obligations.NopHasNoEffect : Prop :=
  (∀ s : State, exec .nop s = .next s) ∧
  (∀ w : Word, decode w = .ok .nop ↔ w = 0x00000000#32) ∧
  (∀ w : Word, bits 31 28 w = 0#4 → w ≠ 0x00000000#32 → ∀ s : State, command w s = .next { s with rej := true }) ∧
  (∀ s e : State, s.pins.rst = false → s.pins.access = .write 0x00#8 0x00000000#32 → engineStep s = .next e →
    step s = .next (s.tick e))

/-- R141: an accepted SEND completes with the transfer started (with OK at once for `N = 0`); any other SEND is rejected. The
byte put on the request is `SEQ[0]`; where it is not known (log 2, log 19), it is a draw and the statement leaves it free. -/
def Obligations.SendStartsTransfer : Prop :=
  (∀ s : State, s.st = .idle ∨ s.st = .done →
    exec (.send 0#16) s = .next { s with
      len := 0#16, idx := 0#16, fault := ⟨false, false, false, false⟩, st := .done,
      res := ⟨.ok, 0#1, ⟨false, false, false⟩, 0#16⟩ }) ∧
  (∀ (s : State) (n : Half), s.st = .idle ∨ s.st = .done → n ≠ 0#16 → n.toNat ≤ s.params.seqMax.toNat →
    ∃ v : Byte, (∀ b, s.known 0 = some b → v = b) ∧
      exec (.send n) s = .next { s with
        len := n, idx := 0#16, fault := ⟨false, false, false, false⟩, st := .setData,
        res := ⟨.none, 0#1, ⟨false, false, false⟩, 0#16⟩, treq := .write s.params.dataAddr v }) ∧
  (∀ (s : State) (n : Half), ¬ ((s.st = .idle ∨ s.st = .done) ∧ n.toNat ≤ s.params.seqMax.toNat) →
    exec (.send n) s = .next { s with rej := true })

/-- R142: RETRY at the decision point completes in POLL_WAIT with a full poll interval and no polls counted; elsewhere it is
rejected. -/
def Obligations.RetryResumesPolling : Prop :=
  (∀ s : State, s.st = .faultWait →
    exec .retry s = .next { s with st := .pollWait, cnt := s.params.pollCycles.val, polls := 0#16 }) ∧
  (∀ s : State, s.st ≠ .faultWait → exec .retry s = .next { s with rej := true })

/-- R143: ABORT at the decision point completes in DONE with TIMEOUT, or with DEVICE_FAULT and the flags of the faulting poll;
elsewhere it is rejected. That `treq` is NONE is `finish`'s (60_exceptions.md rule R168), read by inference: R143's own effect does
not write `treq` (log 13, DEDUCED). -/
def Obligations.AbortReportsTheFault : Prop :=
  (∀ s : State, s.st = .faultWait → s.fault.timeout = true →
    exec .abort s = .next { s with res := ⟨.timeout, 0#1, ⟨false, false, false⟩, s.idx⟩, treq := .none, st := .done }) ∧
  (∀ s : State, s.st = .faultWait → s.fault.timeout = false →
    exec .abort s = .next { s with
      res := ⟨.deviceFault, 0#1, ⟨s.fault.pe, s.fault.desel, s.fault.err⟩, s.idx⟩, treq := .none, st := .done }) ∧
  (∀ s : State, s.st ≠ .faultWait → exec .abort s = .next { s with rej := true })

/-- R145: SETLE between transfers completes with the policy set, and `autofeed` follows; elsewhere, and with POL 3, it is
rejected. -/
def Obligations.SetleSetsThePolicy : Prop :=
  (∀ s : State, s.st = .idle ∨ s.st = .done →
    exec (.setle 0#2) s = .next { s with policy := .none } ∧
    exec (.setle 1#2) s = .next { s with policy := .hard } ∧
    exec (.setle 2#2) s = .next { s with policy := .soft }) ∧
  (∀ (s : State) (pol : BitVec 2), s.st ≠ .idle → s.st ≠ .done → exec (.setle pol) s = .next { s with rej := true }) ∧
  (∀ s : State, exec (.setle 3#2) s = .next { s with rej := true }) ∧
  (∀ s : State, s.autofeed = true ↔ s.policy = .hard)

/-- R146: ACK between transfers completes with `rej` cleared and DONE left for IDLE; elsewhere it is rejected and sets `rej`. -/
def Obligations.AckCollectsTheResult : Prop :=
  (∀ s : State, s.st = .done → exec .ack s = .next { s with rej := false, st := .idle }) ∧
  (∀ s : State, s.st = .idle → exec .ack s = .next { s with rej := false }) ∧
  (∀ s : State, s.st ≠ .idle → s.st ≠ .done → exec .ack s = .next { s with rej := true })

/-- R147: WRBUF between transfers completes with `SEQ[A] <- V`: that byte reads back, every other byte is as before, and nothing
but SEQ changes. Elsewhere, or with `A >= SEQ_MAX`, it is rejected. The model's own form, no rule's: `seqOld`, the indices written
before a reset and not since, is part of SEQ's storage (log 19, DESIGN CHOICE), and an accepted WRBUF keeps SEQ's canonical form
(log 2, DESIGN CHOICE). -/
def Obligations.WrbufStoresOneByte : Prop :=
  (∀ (s : State) (a : Half) (v : Byte), s.st = .idle ∨ s.st = .done → a.toNat < s.params.seqMax.toNat →
    ∃ t : State, exec (.wrbuf a v) s = .next t ∧ t = { s with seq := t.seq, seqOld := t.seqOld } ∧
      t.seq.lookup a.toNat = some v ∧ t.known a.toNat = some v ∧
      (∀ j, j ≠ a.toNat → t.seq.lookup j = s.seq.lookup j ∧ t.known j = s.known j) ∧
      (s.seq.wf = true → t.seq.wf = true)) ∧
  (∀ (s : State) (a : Half) (v : Byte), ¬ ((s.st = .idle ∨ s.st = .done) ∧ a.toNat < s.params.seqMax.toNat) →
    exec (.wrbuf a v) s = .next { s with rej := true })

/-- R148: a reserved word is rejected in every state. -/
def Obligations.ReservedCommandRejected : Prop :=
  ∀ (s : State) (w : Word) (r : ReservedReason), decode w = .error r →
    hostAccess (.write 0x00#8 w) s = .next { s with rej := true }

/-- R149: the acceptance table. A rejected command sets `rej` and changes nothing else, and the engine's step of the cycle
proceeds; an accepted one leaves `rej` alone, but for ACK. -/
def Obligations.AcceptanceTable : Prop :=
  (∀ (s : State) (i : Instr), acceptedIn s i →
    ∃ t, exec i s = .next t ∧ (i ≠ .ack → t.rej = s.rej) ∧ (i = .ack → t.rej = false)) ∧
  (∀ (s : State) (i : Instr), ¬ acceptedIn s i → exec i s = .next { s with rej := true }) ∧
  (∀ (s e : State), s.rejects → engineStep s = .next e → step s = .next (s.tick { e with rej := true }))

/-- Every command completes in every state: none stops the machine. -/
def Obligations.EveryCommandCompletes : Prop :=
  ∀ (i : Instr) (s : State), ∃ t, exec i s = .next t

/-- The frame of the commands: each changes only the elements its rule names (R140 to R147), and of SEQ only the byte WRBUF
stores to: what is stored there (`lookup`) and what it reads as (`known`). -/
def Obligations.CommandFrame : Prop :=
  ∀ (i : Instr) (s t : State), exec i s = .next t →
    (t.params = s.params ∧ t.hostIn = s.hostIn ∧ t.trespIn = s.trespIn ∧ t.draws = s.draws ∧
      t.seqKept = s.seqKept ∧ t.abandoned = s.abandoned ∧
      t.pstat = s.pstat ∧ t.pvalid = s.pvalid ∧ t.dataQ = s.dataQ ∧ t.strobeQ = s.strobeQ) ∧
    ((∀ n, i ≠ .send n) → t.len = s.len ∧ t.idx = s.idx ∧ t.fault = s.fault) ∧
    ((∀ n, i ≠ .send n) → i ≠ .abort → t.res = s.res ∧ t.treq = s.treq) ∧
    (i ≠ .retry → t.cnt = s.cnt ∧ t.polls = s.polls) ∧
    ((∀ p, i ≠ .setle p) → t.policy = s.policy) ∧
    ((∀ a v, i ≠ .wrbuf a v) → t.seq = s.seq ∧ t.seqOld = s.seqOld) ∧
    (∀ j, (∀ a v, i = .wrbuf a v → j ≠ a.toNat) → t.seq.lookup j = s.seq.lookup j ∧ t.known j = s.known j) ∧
    ((∀ n, i ≠ .send n) → i ≠ .retry → i ≠ .abort → i ≠ .ack → t.st = s.st) ∧
    (i ≠ .ack → t.rej = s.rej ∨ t.rej = true)

/-! ## Host accesses and registers (20_memory.md, 10_state.md) -/

/-- R54: a write to anything but CMD is rejected; a read of CMD, of an unmapped or of a misaligned address returns 0; a read
never has an effect. -/
def Obligations.AccessesOutsideTheRules : Prop :=
  (∀ (s : State) (a : HostAddr) (v : Word), a.toNat % 4 ≠ 0 ∨ 0x18 ≤ a.toNat ∨ (0x04 ≤ a.toNat ∧ a.toNat ≤ 0x14) →
    hostAccess (.write a v) s = .next { s with rej := true }) ∧
  (∀ (s : State) (a : HostAddr), a = 0x00#8 ∨ a.toNat % 4 ≠ 0 ∨ 0x18 ≤ a.toNat →
    s.hostRead a = 0x00000000#32 ∧ hostAccess (.read a) s = .next s)

/-- R53: the effect of a cycle with a read is that of the same cycle without it. -/
def Obligations.ReadsHaveNoSideEffect : Prop :=
  ∀ (s : State) (a : HostAddr) (rst : Bool) (later : List HostPins),
    step { s with hostIn := ⟨rst, .read a⟩ :: later } = step { s with hostIn := ⟨rst, .none⟩ :: later }

/-- R52: the register map. A reserved address reads 0 and its write is rejected; CMD reads 0. -/
def Obligations.RegisterMap : Prop :=
  ∀ s : State,
    s.hostRead 0x00#8 = 0#32 ∧ s.hostRead 0x04#8 = s.statusWord ∧ s.hostRead 0x08#8 = s.resultWord ∧
    s.hostRead 0x0C#8 = s.pstatWord ∧ s.hostRead 0x10#8 = s.faultWord ∧ s.hostRead 0x14#8 = s.lenWord ∧
    (∀ w : Word, hostAccess (.write 0x00#8 w) s = command w s) ∧
    (∀ (a : HostAddr) (v : Word), 0x04 ≤ a.toNat ∧ a.toNat ≤ 0x14 →
      hostAccess (.write a v) s = .next { s with rej := true }) ∧
    (∀ a : HostAddr, 0x18 ≤ a.toNat → s.hostRead a = 0#32 ∧
      ∀ v : Word, hostAccess (.write a v) s = .next { s with rej := true })

/-- R37 and R38: the fields of STATUS and RESULT, the unlisted bits 0, and the codes they show: the nine states of R22, the three
policies of R29 and the five results of R33. -/
def Obligations.StatusAndResultLayout : Prop :=
  (∀ s : State,
    (bits 3 0 s.statusWord = s.st.code ∧ bits 4 4 s.statusWord = flag s.attn ∧ bits 5 5 s.statusWord = flag s.rej ∧
      bits 7 6 s.statusWord = s.policy.code ∧ bits 8 8 s.statusWord = flag s.strobeQ ∧
      bits 9 9 s.statusWord = flag s.autofeed ∧ bits 15 10 s.statusWord = 0#6 ∧ bits 31 16 s.statusWord = s.idx) ∧
    (bits 2 0 s.resultWord = s.res.code.code ∧ bits 3 3 s.resultWord = s.res.phase ∧
      bits 4 4 s.resultWord = flag s.res.flags.pe ∧ bits 5 5 s.resultWord = flag s.res.flags.desel ∧
      bits 6 6 s.resultWord = flag s.res.flags.err ∧ bits 15 7 s.resultWord = 0#9 ∧
      bits 31 16 s.resultWord = s.res.ridx)) ∧
  (EngineState.idle.code = 0#4 ∧ EngineState.setData.code = 1#4 ∧ EngineState.settle.code = 2#4 ∧
    EngineState.strobe.code = 3#4 ∧ EngineState.release.code = 4#4 ∧ EngineState.pollWait.code = 5#4 ∧
    EngineState.poll.code = 6#4 ∧ EngineState.faultWait.code = 7#4 ∧ EngineState.done.code = 8#4) ∧
  (LinePolicy.none.code = 0#2 ∧ LinePolicy.hard.code = 1#2 ∧ LinePolicy.soft.code = 2#2) ∧
  (ResultCode.none.code = 0#3 ∧ ResultCode.ok.code = 1#3 ∧ ResultCode.busError.code = 2#3 ∧
    ResultCode.deviceFault.code = 3#3 ∧ ResultCode.timeout.code = 4#3) ∧
  State.reset.statusWord = 0#32 ∧ State.reset.resultWord = 0#32

/-- R39, R40 and R41: the fields of PSTAT, FAULT and LEN, the unlisted bits 0; and R42's read of CMD. -/
def Obligations.PstatFaultLenLayout : Prop :=
  ∀ s : State,
    (bits 0 0 s.pstatWord = flag s.pstat.ack ∧ bits 1 1 s.pstatWord = flag s.pstat.busy ∧
      bits 2 2 s.pstatWord = flag s.pstat.paperEnd ∧ bits 3 3 s.pstatWord = flag s.pstat.select ∧
      bits 4 4 s.pstatWord = flag s.pstat.error ∧ bits 7 5 s.pstatWord = 0#3 ∧ bits 8 8 s.pstatWord = flag s.pvalid ∧
      bits 31 9 s.pstatWord = 0#23) ∧
    (bits 0 0 s.faultWord = flag s.fault.pe ∧ bits 1 1 s.faultWord = flag s.fault.desel ∧
      bits 2 2 s.faultWord = flag s.fault.err ∧ bits 3 3 s.faultWord = flag s.fault.timeout ∧
      bits 31 4 s.faultWord = 0#28) ∧
    (bits 15 0 s.lenWord = s.len ∧ bits 31 16 s.lenWord = 0#16) ∧
    s.hostRead 0x00#8 = 0#32 ∧
    State.reset.pstatWord = 0#32 ∧ State.reset.faultWord = 0#32 ∧ State.reset.lenWord = 0#32

/-! ## Status Monitor (40_status_monitor.md) -/

/-- R101, R102, R103, R104 and R105: Fault, Ready and Undecided, Fault first, and the fault reasons. -/
def Obligations.ClassificationRules : Prop :=
  ∀ (p : Params) (ps : PrinterStatus),
    (isFault ps = true ↔ ps.paperEnd = true ∨ ps.select = false ∨ ps.error = false) ∧
    (rawReady p ps = true ↔ ps.busy = false ∧ (ps.ack = true ∨ p.ackDistinguishable = false)) ∧
    (classify p ps = .ready ↔ rawReady p ps = true ∧ isFault ps = false) ∧
    (∀ f, classify p ps = .fault f ↔ isFault ps = true ∧ f = ⟨ps.paperEnd, !ps.select, !ps.error⟩) ∧
    (classify p ps = .undecided ↔ isFault ps = false ∧ rawReady p ps = false) ∧
    (isFault ps = true ↔ faultFlags ps ≠ ⟨false, false, false⟩)

/-- R107: the statuses with no fault are the four with `paperEnd=0, select=1, error=1`, split by `(ack, busy)`; the other 28 are
FAULT. -/
def Obligations.ClassificationCounts : Prop :=
  ∀ p : Params,
    (∀ pe sel err ack busy, pe = true ∨ sel = false ∨ err = false →
      ∃ f, classify p ⟨ack, busy, pe, sel, err⟩ = .fault f) ∧
    (p.ackDistinguishable = true →
      classify p ⟨true, false, false, true, true⟩ = .ready ∧ classify p ⟨false, false, false, true, true⟩ = .undecided ∧
      classify p ⟨false, true, false, true, true⟩ = .undecided ∧ classify p ⟨true, true, false, true, true⟩ = .undecided) ∧
    (p.ackDistinguishable = false →
      classify p ⟨false, false, false, true, true⟩ = .ready ∧ classify p ⟨true, false, false, true, true⟩ = .ready ∧
      classify p ⟨false, true, false, true, true⟩ = .undecided ∧ classify p ⟨true, true, false, true, true⟩ = .undecided)

/-! ## The cycle (41_handshake_engine.md rule R110) -/

/-- R110: a cycle without reset is the engine's step and the host access, both from the start of the cycle; the engine never
writes `rej`, `policy` or SEQ, and where it writes at all the host writes only `rej`. A reset cycle does only the reset. -/
def Obligations.CycleJoinsEngineAndHost : Prop :=
  (∀ s : State, s.pins.rst = true → step s = .next (s.tick s.resetElements)) ∧
  (∀ s h : State, s.pins.rst = false → s.st.inert = true → hostAccess s.pins.access s = .next h →
    engineStep s = .next s ∧ step s = .next (s.tick h)) ∧
  (∀ s e : State, s.pins.rst = false → s.st.inert = false → engineStep s = .next e →
    (e.rej = s.rej ∧ e.policy = s.policy ∧ e.seq = s.seq ∧ e.seqOld = s.seqOld) ∧
    ((hostAccess s.pins.access s = .next s ∧ step s = .next (s.tick e)) ∨
     (hostAccess s.pins.access s = .next { s with rej := true } ∧ step s = .next (s.tick { e with rej := true }))))

/-- When the host writes a word that decodes to `i`, the step runs `exec i` at the state of the cycle's start and, besides,
uses up the cycle's inputs and draw number (`tick`); where the engine moves, the engine's step is joined, and the command can
only have set `rej`. `withFetchWord` puts the word on the pins of the coming cycle. -/
def Obligations.StepRunsTheWrittenCommand : Prop :=
  (∀ (s h : State) (w : Word) (i : Instr),
    s.pins.rst = false → s.pins.access = .write 0x00#8 w → decode w = .ok i → exec i s = .next h →
    (s.st.inert = true → step s = .next (s.tick h)) ∧
    (s.st.inert = false → ∀ e, engineStep s = .next e → step s = .next (s.tick { e with rej := h.rej }))) ∧
  (∀ (s : State) (w : Nat),
    (s.withFetchWord 32 w).pins = ⟨false, .write 0x00#8 (BitVec.ofNat 32 w)⟩ ∧
    s.withFetchWord 32 w = { s with hostIn := (s.withFetchWord 32 w).hostIn })

/-! ## Engine states (41_handshake_engine.md) -/

/-- R113: SET_DATA with its write outstanding. -/
def Obligations.SetDataAnswered : Prop :=
  ∀ (s : State) (a : Nat) (v : Byte), s.st = .setData → s.treq = .write a v →
    (s.tresp = .none → engineStep s = .next s) ∧
    (s.tresp = .ok → engineStep s = .next { s with
      dataQ := some v, treq := .none, st := .settle, cnt := s.params.settleCycles.val }) ∧
    (s.tresp = .busErr → engineStep s = .next { s with
      treq := .none, res := ⟨.busError, 0#1, ⟨false, false, false⟩, s.idx⟩, st := .done })

/-- R114, R118 and R119: SETTLE, RELEASE and POLL_WAIT, and the like of STROBE (R116): count down, then the exit action. -/
def Obligations.TimedStatesCountDown : Prop :=
  ∀ s : State,
    (s.st = .settle ∨ s.st = .strobe ∨ s.st = .pollWait → 1 < s.cnt.toNat →
      engineStep s = .next { s with cnt := s.cnt - 1#16 }) ∧
    (s.st = .settle → s.cnt.toNat ≤ 1 →
      engineStep s = .next { s with st := .strobe, strobeQ := true, cnt := s.params.strobeCycles.val }) ∧
    (s.st = .strobe → s.cnt.toNat ≤ 1 → engineStep s = .next { s with st := .release, strobeQ := false }) ∧
    (s.st = .release →
      engineStep s = .next { s with st := .pollWait, cnt := s.params.pollCycles.val, polls := 0#16 }) ∧
    (s.st = .pollWait → s.cnt.toNat ≤ 1 → engineStep s = .next { s with st := .poll, treq := .read s.params.statusAddr })

/-- R111: the transition that enters a timed state sets `cnt` to its duration, and the engine is in the state for exactly that
many cycles, then leaves it by the exit action, whatever the host and the Transport do without a reset. -/
def Obligations.TimedStateLastsItsCount : Prop :=
  (∀ (s t : State) (c : Count), s.pins.rst = false → step s = .next t → t.st ≠ s.st →
    timedCycles t.params t.st = some c → t.cnt = c.val) ∧
  (∀ (s : State) (c : Count), timedCycles s.params s.st = some c → s.cnt = c.val → s.noResetFor c.toNat →
    (∀ k, k < c.toNat → ∃ t, Sys2Proof.core.run k s = .next t ∧ t.st = s.st ∧ t.strobeQ = s.strobeQ) ∧
    ∃ t, Sys2Proof.core.run c.toNat s = .next t ∧ t.st = s.st.afterTimed)

/-- R120 and R121: a poll in POLL: no answer, a failed read, and a status classified FAULT. -/
def Obligations.PollAnswered : Prop :=
  ∀ (s : State) (a : Nat), s.st = .poll → s.treq = .read a →
    (s.tresp = .none → engineStep s = .next s) ∧
    (s.tresp = .busErr → engineStep s = .next { s with
      treq := .none, res := ⟨.busError, 1#1, ⟨false, false, false⟩, s.idx⟩, st := .done }) ∧
    (∀ (b : Byte) (f : DeviceFlags), s.tresp = .okByte b → classify s.params (decodeStatus s.params b) = .fault f →
      engineStep s = .next { s with
        treq := .none, pstat := decodeStatus s.params b, pvalid := true, st := .faultWait,
        fault := ⟨f.pe, f.desel, f.err, false⟩ })

/-- R122: a READY poll advances the index by one and ends the transfer with OK or begins the next byte. The premises on `idx` and
`len` are R23's and R24's (`StepKeepsInvariant`). A byte that is not known (log 2, log 19) is left free. -/
def Obligations.PollReadyAdvances : Prop :=
  ∀ (s : State) (a : Nat) (b : Byte), s.st = .poll → s.treq = .read a → s.tresp = .okByte b →
    classify s.params (decodeStatus s.params b) = .ready → s.idx < s.len → s.len.toNat ≤ s.params.seqMax.toNat →
    (s.idx.toNat + 1 = s.len.toNat →
      engineStep s = .next { s with
        treq := .none, pstat := decodeStatus s.params b, pvalid := true, idx := s.idx + 1#16, st := .done,
        res := ⟨.ok, 0#1, ⟨false, false, false⟩, s.len⟩ }) ∧
    (s.idx.toNat + 1 ≠ s.len.toNat →
      ∃ v : Byte, (∀ c, s.known (s.idx.toNat + 1) = some c → v = c) ∧
        engineStep s = .next { s with
          pstat := decodeStatus s.params b, pvalid := true, idx := s.idx + 1#16, st := .setData,
          treq := .write s.params.dataAddr v })

/-- R123 and R124: an UNDECIDED poll polls again, or times out when the bound is reached; `p' = min(polls + 1, 65535)`. -/
def Obligations.PollUndecidedOrTimeout : Prop :=
  ∀ (s : State) (a : Nat) (b : Byte) (p : Half), s.st = .poll → s.treq = .read a → s.tresp = .okByte b →
    classify s.params (decodeStatus s.params b) = .undecided → p.toNat = min (s.polls.toNat + 1) 65535 →
    (s.params.maxPolls = 0#16 ∨ p.toNat < s.params.maxPolls.toNat →
      engineStep s = .next { s with
        treq := .none, pstat := decodeStatus s.params b, pvalid := true, polls := p, st := .pollWait,
        cnt := s.params.pollCycles.val }) ∧
    (s.params.maxPolls ≠ 0#16 → s.params.maxPolls.toNat ≤ p.toNat →
      engineStep s = .next { s with
        treq := .none, pstat := decodeStatus s.params b, pvalid := true, polls := p, st := .faultWait,
        fault := ⟨false, false, false, true⟩ })

/-- R125: in IDLE, FAULT_WAIT and DONE the engine writes nothing and `tresp` is ignored; `st` changes only through a command or
reset. What the Transport offers makes no difference but to what it still has to offer and still owes. -/
def Obligations.InertStatesWait : Prop :=
  ∀ s : State, s.st = .idle ∨ s.st = .faultWait ∨ s.st = .done →
    engineStep s = .next s ∧
    (∀ t, step s = .next t → t.st ≠ s.st → s.pins.rst = true ∨ ∃ i, s.issues i ∧ acceptedIn s i) ∧
    (∀ (t : State) (answers : List Tresp), step s = .next t → ∃ t', step { s with trespIn := answers } = .next t' ∧
      { t' with trespIn := t.trespIn, abandoned := t.abandoned } = t)

/-! ## Errors, the decision point and ATTN (60_exceptions.md) -/

/-- R160 and R161, as `finish` (R168) ends the transfer: a failed write or read ends it at once in DONE with BUS_ERROR, its
phase and the byte's index; `idx`, `len`, `pstat`, `fault`, `data_q` and SEQ keep their values. -/
def Obligations.BusErrorEndsTheTransfer : Prop :=
  ∀ s : State, s.Inv → s.pins.rst = false → s.tresp = .busErr → s.st = .setData ∨ s.st = .poll →
    ∃ t, step s = .next t ∧ t.st = .done ∧ t.treq = .none ∧ t.strobeQ = false ∧ t.attn = true ∧
      t.res = ⟨.busError, if s.st = .setData then 0#1 else 1#1, ⟨false, false, false⟩, s.idx⟩ ∧
      t.idx = s.idx ∧ t.len = s.len ∧ t.pstat = s.pstat ∧ t.pvalid = s.pvalid ∧ t.fault = s.fault ∧ t.dataQ = s.dataQ ∧
      t.seq = s.seq

/-- R170: what the entry into the decision point keeps and changes. -/
def Obligations.DecisionPointEntry : Prop :=
  ∀ s t : State, s.Inv → step s = .next t → s.st ≠ .faultWait → t.st = .faultWait →
    s.st = .poll ∧ t.idx = s.idx ∧ t.len = s.len ∧ t.seq = s.seq ∧ t.res = ⟨.none, 0#1, ⟨false, false, false⟩, 0#16⟩ ∧
    t.strobeQ = false ∧ t.policy = s.policy ∧ t.dataQ = s.dataQ ∧ t.treq = .none ∧ t.attn = true ∧
    (∃ b, s.tresp = .okByte b ∧ t.pstat = decodeStatus s.params b) ∧
    ((t.fault.timeout = true ∧ t.fault.pe = false ∧ t.fault.desel = false ∧ t.fault.err = false) ∨
     (t.fault.timeout = false ∧ (t.fault.pe = true ∨ t.fault.desel = true ∨ t.fault.err = true)))

/-- R171: the only ways out of FAULT_WAIT are RETRY, ABORT and reset; commands other than these and NOP are rejected there. -/
def Obligations.DecisionPointExits : Prop :=
  (∀ s t : State, s.st = .faultWait → step s = .next t →
    t.st = .faultWait ∨ (s.issues .retry ∧ t.st = .pollWait ∧ t.idx = s.idx) ∨ (s.issues .abort ∧ t.st = .done) ∨
      s.pins.rst = true) ∧
  (∀ (s : State) (i : Instr), s.st = .faultWait → i ≠ .nop → i ≠ .retry → i ≠ .abort →
    exec i s = .next { s with rej := true })

/-- R173 (5): a RETRY in the cycle of the poll that enters FAULT_WAIT is rejected, since `st` was POLL. -/
def Obligations.RetryInTheFaultingCycleRejected : Prop :=
  ∀ (s : State) (f : DeviceFlags), s.issues .retry → s.pollsAs (.fault f) →
    ∃ t, step s = .next t ∧ t.st = .faultWait ∧ t.rej = true ∧ t.fault = ⟨f.pe, f.desel, f.err, false⟩

/-- R169 and R43: ATTN is 1 exactly in FAULT_WAIT and DONE; it rises on an entry into one of them and falls only when RETRY, ACK, a
SEND with `N >= 1` or a reset leaves them. -/
def Obligations.AttnRisesAndFalls : Prop :=
  (∀ s : State, s.attn = true ↔ s.st = .faultWait ∨ s.st = .done) ∧
  (∀ s t : State, step s = .next t → s.attn = false → t.attn = true →
    (s.st = .poll ∧ t.st = .faultWait) ∨ ((s.st = .poll ∨ s.st = .setData) ∧ t.st = .done) ∨
      (s.st = .idle ∧ s.issues (.send 0#16) ∧ t.st = .done)) ∧
  (∀ s t : State, step s = .next t → s.attn = true → t.attn = false →
    s.pins.rst = true ∨ (s.st = .faultWait ∧ s.issues .retry) ∨ (s.st = .done ∧ s.issues .ack) ∨
      (s.st = .done ∧ ∃ n, n ≠ 0#16 ∧ s.issues (.send n)))

/-- R165: with `MAX_POLLS = 0`, Timeout is never raised. -/
def Obligations.NoTimeoutWithoutABound : Prop :=
  ∀ s t : State, s.params.maxPolls = 0#16 → step s = .next t → s.fault.timeout = false → t.fault.timeout = false

/-- R127: a step that ends a transfer ends it with exactly one of the results the rule lists. -/
def Obligations.TransferEnds : Prop :=
  ∀ s t : State, s.Inv → step s = .next t → s.st.inTransfer = true → t.st = .done →
    (s.seesReady = true ∧ t.res = ⟨.ok, 0#1, ⟨false, false, false⟩, s.len⟩ ∧ t.idx = s.len) ∨
    (s.tresp = .busErr ∧ t.res.code = .busError ∧ t.res.ridx = s.idx) ∨
    (s.issues .abort ∧ (t.res.code = .deviceFault ∨ t.res.code = .timeout) ∧ t.res.ridx = s.idx)

/-! ## Who writes what (10_state.md) -/

/-- R23 and R46: `idx` is set to 0 by SEND, incremented by exactly 1 by a READY poll, and otherwise kept, but for reset. -/
def Obligations.IndexWriters : Prop :=
  ∀ s t : State, s.Inv → step s = .next t → t.idx ≠ s.idx →
    (s.pins.rst = true ∧ t.idx = 0#16) ∨ (s.startsTransfer = true ∧ t.idx = 0#16) ∨
      (s.seesReady = true ∧ t.idx.toNat = s.idx.toNat + 1)

/-- R24, R29 and R36: `len` is written only by SEND, `policy` only by SETLE and reset, a byte of SEQ only by WRBUF. What a byte is
known to hold changes by WRBUF and by reset, after which the written bytes read as written or are all unknown, by the one open
value `seqKept`, which no step writes: the model's choice where R36 and R190 differ from R57 (log 19, DESIGN CHOICE). -/
def Obligations.LengthPolicyAndBufferWriters : Prop :=
  ∀ s t : State, step s = .next t →
    (t.len ≠ s.len → s.pins.rst = true ∨ ∃ n, s.issues (.send n) ∧ acceptedIn s (.send n) ∧ t.len = n) ∧
    (t.policy ≠ s.policy → s.pins.rst = true ∨
      ∃ pol, s.issues (.setle pol) ∧ acceptedIn s (.setle pol) ∧ t.policy.code = pol) ∧
    (∀ j, t.seq.lookup j ≠ s.seq.lookup j →
      ∃ a v, s.issues (.wrbuf a v) ∧ acceptedIn s (.wrbuf a v) ∧ j = a.toNat ∧ t.seq.lookup j = some v) ∧
    (∀ j, t.known j ≠ s.known j → s.pins.rst = true ∨
      ∃ a v, s.issues (.wrbuf a v) ∧ acceptedIn s (.wrbuf a v) ∧ j = a.toNat ∧ t.known j = some v) ∧
    (s.pins.rst = true → ∀ j, t.known j = if s.seqKept = true then s.seq.lookup j else none) ∧
    t.seqKept = s.seqKept

/-- R57 and R117: during a transfer SEQ and the autofeed level do not change, whatever the host writes; only a reset can change
autofeed and what SEQ reads as (log 19), and not what SEQ holds. -/
def Obligations.BufferAndAutofeedFixedInATransfer : Prop :=
  ∀ s t : State, s.st.inTransfer = true → step s = .next t →
    t.seq = s.seq ∧
    (s.pins.rst = false → t.policy = s.policy ∧ t.autofeed = s.autofeed ∧ ∀ j, t.known j = s.known j)

/-- R34: `rej` is set exactly by a rejection, and cleared only by an accepted ACK and by reset. -/
def Obligations.RejWriters : Prop :=
  ∀ s t : State, step s = .next t →
    (s.rejects → t.rej = true) ∧
    (s.rej = false → t.rej = true → s.rejects) ∧
    (s.rej = true → t.rej = false → s.pins.rst = true ∨ (s.issues .ack ∧ acceptedIn s .ack))

/-- R27, R28 and R31: `data_q` is written only by a write answered OK; `pstat` is replaced whole by each answered poll and by
nothing else but reset; `strobe_q` is 1 exactly in STROBE. -/
def Obligations.DataAndStatusWriters : Prop :=
  ∀ s t : State, s.Inv → step s = .next t →
    (t.dataQ ≠ s.dataQ → s.pins.rst = true ∨
      (s.st = .setData ∧ s.tresp = .ok ∧ ∃ v, s.treq = .write s.params.dataAddr v ∧ t.dataQ = some v)) ∧
    (s.st = .poll → s.pins.rst = false → ∀ b, s.tresp = .okByte b → t.pstat = decodeStatus s.params b ∧ t.pvalid = true) ∧
    ((t.pstat ≠ s.pstat ∨ t.pvalid ≠ s.pvalid) → s.pins.rst = true ∨ (s.st = .poll ∧ ∃ b, s.tresp = .okByte b)) ∧
    (t.strobeQ = true ↔ t.st = .strobe)

/-- R32 and R33: `fault` is written only on an entry into FAULT_WAIT, by SEND and by reset; `res` only on an entry into DONE, by an
accepted SEND (R141: NONE, or OK for `N = 0`) and by reset. R172: an entry overwrites, nothing accumulates. -/
def Obligations.FaultAndResultWriters : Prop :=
  ∀ s t : State, step s = .next t →
    (t.fault ≠ s.fault → (s.st = .poll ∧ t.st = .faultWait) ∨
      ((s.pins.rst = true ∨ s.startsTransfer = true) ∧ t.fault = ⟨false, false, false, false⟩)) ∧
    (t.res ≠ s.res → (s.st ≠ .done ∧ t.st = .done) ∨
      (∃ n, s.issues (.send n) ∧ acceptedIn s (.send n) ∧
        t.res = ⟨if n = 0#16 then .ok else .none, 0#1, ⟨false, false, false⟩, 0#16⟩) ∨
      (s.pins.rst = true ∧ t.res = ⟨.none, 0#1, ⟨false, false, false⟩, 0#16⟩))

/-- R59 and R63: a step puts on `treq` only a write to `DATA_ADDR` on entering SET_DATA or a read of `STATUS_ADDR` on entering POLL. -/
def Obligations.RequestsAreTheEnginesTwo : Prop :=
  ∀ s t : State, step s = .next t → t.treq ≠ s.treq → t.treq ≠ .none →
    (∃ v, t.treq = .write s.params.dataAddr v ∧ t.st = .setData) ∨ (t.treq = .read s.params.statusAddr ∧ t.st = .poll)

/-- R60, R61 and R129: a request is held, and the engine waits, until the Transport answers, however long that takes; an answer moves
the engine on and takes the request away in its cycle. R62 and R191: an answer is of a kind its request allows; with no request
outstanding it answers one that reset cut off, which is then answered, and which is dropped once a new request is outstanding;
a reset abandons the request it cuts off. -/
def Obligations.RequestHeldUntilAnswered : Prop :=
  (∀ s : State, s.Inv → s.pins.rst = false → s.st = .setData ∨ s.st = .poll →
    (s.tresp = .none → ∃ t, step s = .next t ∧ t.st = s.st ∧ t.treq = s.treq ∧ t.idx = s.idx) ∧
    (s.tresp ≠ .none → ∃ t, step s = .next t ∧ t.st ≠ s.st ∧ t.treq ≠ s.treq)) ∧
  (∀ s : State, s.tresp ≠ .none →
    (s.treq ≠ .none → s.treq.allows s.tresp = true) ∧
    (s.treq = .none → s.abandoned ≠ .none ∧ s.abandoned.allows s.tresp = true)) ∧
  (∀ s t : State, step s = .next t →
    (t.treq ≠ .none → t.abandoned = .none) ∧
    (s.treq = .none → s.tresp ≠ .none → t.abandoned = .none) ∧
    (s.treq = .none → s.tresp = .none → t.treq = .none → t.abandoned = s.abandoned)) ∧
  (∀ s t : State, s.pins.rst = true → step s = .next t → s.treq ≠ .none →
    t.treq = .none ∧ t.abandoned = if s.tresp = .none then s.treq else .none)

/-- R112: a byte is begun only by an accepted SEND, with index 0, or by a READY poll, with the next index, so RETRY never writes the
byte again (R202); the byte requested is `SEQ` at that index, left free where it is not known. -/
def Obligations.ByteBegunBySendOrReady : Prop :=
  ∀ s t : State, s.Inv → step s = .next t → t.st = .setData → s.st ≠ .setData →
    ((s.startsTransfer = true ∧ t.idx = 0#16) ∨ (s.seesReady = true ∧ t.idx.toNat = s.idx.toNat + 1)) ∧
    ∃ v : Byte, t.treq = .write s.params.dataAddr v ∧ ∀ b, t.known t.idx.toNat = some b → v = b

/-! ## Reset (70_reset_and_hazards.md) -/

/-- R190: a cycle with `rst = 1` gives every element its reset value, keeps SEQ, and ignores the host access. -/
def Obligations.ResetCycle : Prop :=
  ∀ s : State, s.pins.rst = true →
    ∃ t, step s = .next t ∧ t.st = .idle ∧ t.idx = 0#16 ∧ t.len = 0#16 ∧ t.cnt = 0#16 ∧ t.polls = 0#16 ∧ t.dataQ = none ∧
      t.strobeQ = false ∧ t.policy = .none ∧ t.pstat = ⟨false, false, false, false, false⟩ ∧ t.pvalid = false ∧
      t.fault = ⟨false, false, false, false⟩ ∧ t.res = ⟨.none, 0#1, ⟨false, false, false⟩, 0#16⟩ ∧ t.rej = false ∧
      t.treq = .none ∧ t.seq = s.seq ∧
      t.strobe = false ∧ t.autofeed = false ∧ t.init = false ∧ t.attn = false ∧
      (∀ a ∈ [0x04#8, 0x08#8, 0x0C#8, 0x10#8, 0x14#8], t.hostRead a = 0x00000000#32)

/-- R190 and R192, of the state a model starts from (R193): IDLE, every register reads 0, every output is 0. -/
def Obligations.ResetState : Prop :=
  State.reset.st = .idle ∧ State.reset.treq = .none ∧ State.reset.dataQ = none ∧ State.reset.rej = false ∧
  State.reset.attn = false ∧ State.reset.strobe = false ∧ State.reset.autofeed = false ∧ State.reset.init = false ∧
  (∀ a ∈ [0x00#8, 0x04#8, 0x08#8, 0x0C#8, 0x10#8, 0x14#8], State.reset.hostRead a = 0x00000000#32) ∧
  State.reset.seq.wf = true

/-! ## Headline results -/

/-- The invariant of R45 holds right after reset. -/
def Obligations.ResetMeetsTheInvariant : Prop :=
  State.reset.Inv

/-- R45: every step keeps the invariant, from every state that meets it. -/
def Obligations.StepKeepsInvariant : Prop :=
  ∀ s t : State, s.Inv → step s = .next t → t.Inv

/-- R56: from a state that meets the invariant every step answers a next state: no index at or above `SEQ_MAX` is ever read. -/
def Obligations.InvariantStatesAlwaysStep : Prop :=
  ∀ s : State, s.Inv → ∃ t, step s = .next t

/-- R44: at every step the strobed bytes are exactly those the rule lists for the state, each once and in order, and each byte
before `idx` had a READY poll. -/
def Obligations.StrobedBytesExact : Prop :=
  (∀ t : Traced, t.state.Inv → t.exact → ∀ s', step t.state = .next s' → (t.next s').exact) ∧
  (⟨State.reset, [], []⟩ : Traced).exact

/-- R128: the engine carries byte values without reading them: two states that differ only in the values of the bytes they carry
take steps to states that differ only so. -/
def Obligations.ByteValuesDecideNothing : Prop :=
  ∀ s₁ s₂ t₁ : State, s₁.hideBytes = s₂.hideBytes → step s₁ = .next t₁ →
    ∃ t₂, step s₂ = .next t₂ ∧ t₁.hideBytes = t₂.hideBytes

/-- R126 and R204. One byte with any number of poll rounds, the last of them its first READY: the cycles of each state, and the
cycle in which the next byte, or DONE, is entered. A transfer of such bytes: each byte is entered when the ones before it are
through, and DONE is reached in the cycle that is their sum; with one poll each and equal latencies that is `transferCycles`.
The script is what the Transport offers; the host may do what it likes but reset. Past the end of `hostIn` the pins are idle,
the model's choice (log 4). -/
def Obligations.ByteTimeline : Prop :=
  (∀ (s : State) (b : ByteScript) (rest : List Tresp) (S P Q : Nat),
    S = s.params.settleCycles.toNat → P = s.params.strobeCycles.toNat → Q = s.params.pollCycles.toNat →
    s.Inv → s.st = .setData → b.plays s.params → s.trespIn = b.offers ++ rest → s.noResetFor (b.cycles s.params) →
    (∀ k, k < b.late + 1 → ∃ t, Sys2Proof.core.run k s = .next t ∧ t.st = .setData) ∧
    (∀ k, k < S → ∃ t, Sys2Proof.core.run (b.late + 1 + k) s = .next t ∧ t.st = .settle ∧ t.strobe = false) ∧
    (∀ k, k < P → ∃ t, Sys2Proof.core.run (b.late + 1 + S + k) s = .next t ∧ t.st = .strobe ∧ t.strobe = true) ∧
    (∃ t, Sys2Proof.core.run (b.late + 1 + S + P) s = .next t ∧ t.st = .release ∧ t.strobe = false) ∧
    (∀ before r after, b.rounds = before ++ r :: after → ∀ start, start = b.pollsStart s.params + roundCycles s.params before →
      (∀ k, k < Q → ∃ t, Sys2Proof.core.run (start + k) s = .next t ∧ t.st = .pollWait) ∧
      (∀ k, k < r.late + 1 → ∃ t, Sys2Proof.core.run (start + Q + k) s = .next t ∧ t.st = .poll)) ∧
    (∃ t, Sys2Proof.core.run (b.cycles s.params) s = .next t ∧ t.idx = s.idx + 1#16 ∧ t.trespIn = rest ∧
      (if s.idx + 1#16 = s.len then t.st = .done ∧ t.res = ⟨.ok, 0#1, ⟨false, false, false⟩, s.len⟩ else t.st = .setData))) ∧
  (∀ (s : State) (n : Half) (bs : List ByteScript) (first : Tresp) (rest : List Tresp),
    s.Inv → s.issues (.send n) → acceptedIn s (.send n) → n.toNat = bs.length → bs ≠ [] →
    (∀ b ∈ bs, b.plays s.params) → s.trespIn = first :: bs.flatMap ByteScript.offers ++ rest →
    s.noResetFor (1 + scriptCycles s.params bs) →
    (∀ before b after, bs = before ++ b :: after →
      ∃ t, Sys2Proof.core.run (1 + scriptCycles s.params before) s = .next t ∧ t.st = .setData ∧ t.idx.toNat = before.length) ∧
    (∃ t, Sys2Proof.core.run (1 + scriptCycles s.params bs) s = .next t ∧ t.st = .done ∧
      t.res = ⟨.ok, 0#1, ⟨false, false, false⟩, n⟩ ∧ t.idx = n ∧ t.trespIn = rest)) ∧
  (∀ (p : Params) (bs : List ByteScript) (lw lr : Nat),
    (∀ b ∈ bs, b.undecided = [] ∧ b.late + 1 = lw ∧ b.last.late + 1 = lr) →
    scriptCycles p bs = transferCycles p bs.length lw lr)

/-- R204: an additional undecided poll adds `Q + Lr` cycles and comes back to POLL_WAIT with a full interval, in both cases of R123:
no bound, or a bound the new count is below. -/
def Obligations.UndecidedPollRound : Prop :=
  ∀ (s : State) (lr : Nat) (timed rest : List Tresp) (b : Byte),
    s.Inv → s.st = .pollWait → s.cnt = s.params.pollCycles.val →
    s.params.maxPolls = 0#16 ∨ min (s.polls.toNat + 1) 65535 < s.params.maxPolls.toNat →
    classify s.params (decodeStatus s.params b) = .undecided →
    timed.length = s.params.pollCycles.toNat →
    s.trespIn = timed ++ List.replicate lr .none ++ [.okByte b] ++ rest →
    s.noResetFor (undecidedCycles s.params (lr + 1)) →
    ∃ t, Sys2Proof.core.run (undecidedCycles s.params (lr + 1)) s = .next t ∧ t.st = .pollWait ∧
      t.cnt = s.params.pollCycles.val ∧ t.idx = s.idx ∧ t.polls.toNat = min (s.polls.toNat + 1) 65535 ∧
      t.pstat = decodeStatus s.params b ∧ t.trespIn = rest
end

