-- ==== Sys2Proof/Laws/Bits.lean ====
section
/-! SUPPORT. Laws/Bits.lean: fields and encodings as numbers, for the round trips and the register layouts. -/
namespace Sys2Proof

/-- `v[hi:lo]` as a number. -/
theorem bits_toNat {n : Nat} (hi lo : Nat) (v : BitVec n) : (bits hi lo v).toNat = v.toNat / 2 ^ lo % 2 ^ (hi - lo + 1) := by
  simp [bits, BitVec.extractLsb, BitVec.extractLsb'_toNat, Nat.shiftRight_eq_div_pow]

/-- `a ++ b` as a number. -/
theorem append_toNat {n m : Nat} (a : BitVec n) (b : BitVec m) : (a ++ b).toNat = a.toNat * 2 ^ m + b.toNat := by
  rw [BitVec.toNat_append, ← Nat.shiftLeft_add_eq_or_of_lt b.isLt, Nat.shiftLeft_eq]

theorem encode_send_toNat (n : Half) : (encode (.send n)).toNat = 0x10000000 + n.toNat :=
  (append_toNat (0x1#4 ++ 0#12) n).trans (by simp)

theorem encode_setle_toNat (p : BitVec 2) : (encode (.setle p)).toNat = 0x40000000 + p.toNat :=
  (append_toNat (0x4#4 ++ 0#26) p).trans (by simp)

theorem encode_wrbuf_toNat (a : Half) (v : Byte) :
    (encode (.wrbuf a v)).toNat = 0x60000000 + a.toNat * 256 + v.toNat := by
  have h : (0x6#4 ++ 0#4 ++ a).toNat = 0x600000 + a.toNat := (append_toNat (0x6#4 ++ 0#4) a).trans (by simp)
  refine (append_toNat (0x6#4 ++ 0#4 ++ a) v).trans ?_
  rw [h]
  omega

theorem unlessSet_ok {n : Nat} {mbz : BitVec n} {i j : Instr} :
    unlessSet mbz i = .ok j ↔ mbz = 0#n ∧ i = j := by
  unfold unlessSet
  split <;> simp_all

theorem unlessSet_error {n : Nat} {mbz : BitVec n} {i : Instr} {r : ReservedReason} :
    unlessSet mbz i = .error r ↔ mbz ≠ 0#n ∧ r = .mustBeZero := by
  unfold unlessSet
  split
  · simp_all
  · next h => simp [h, eq_comm]

end Sys2Proof
end

