-- ==== Sys2Proof/Laws/State.lean ====
section
/-! SUPPORT. Laws/State.lean: every field, and what SEQ is known to hold, after every shared operation, so that no proof unfolds a record update. -/
namespace Sys2Proof.Machine

/-! ### reject -/

@[simp] theorem State.reject_st (s : State) : (s.reject).st = s.st := rfl
@[simp] theorem State.reject_idx (s : State) : (s.reject).idx = s.idx := rfl
@[simp] theorem State.reject_len (s : State) : (s.reject).len = s.len := rfl
@[simp] theorem State.reject_cnt (s : State) : (s.reject).cnt = s.cnt := rfl
@[simp] theorem State.reject_polls (s : State) : (s.reject).polls = s.polls := rfl
@[simp] theorem State.reject_dataQ (s : State) : (s.reject).dataQ = s.dataQ := rfl
@[simp] theorem State.reject_strobeQ (s : State) : (s.reject).strobeQ = s.strobeQ := rfl
@[simp] theorem State.reject_policy (s : State) : (s.reject).policy = s.policy := rfl
@[simp] theorem State.reject_pstat (s : State) : (s.reject).pstat = s.pstat := rfl
@[simp] theorem State.reject_pvalid (s : State) : (s.reject).pvalid = s.pvalid := rfl
@[simp] theorem State.reject_fault (s : State) : (s.reject).fault = s.fault := rfl
@[simp] theorem State.reject_res (s : State) : (s.reject).res = s.res := rfl
@[simp] theorem State.reject_rej (s : State) : (s.reject).rej = true := rfl
@[simp] theorem State.reject_treq (s : State) : (s.reject).treq = s.treq := rfl
@[simp] theorem State.reject_seq (s : State) : (s.reject).seq = s.seq := rfl
@[simp] theorem State.reject_params (s : State) : (s.reject).params = s.params := rfl
@[simp] theorem State.reject_hostIn (s : State) : (s.reject).hostIn = s.hostIn := rfl
@[simp] theorem State.reject_trespIn (s : State) : (s.reject).trespIn = s.trespIn := rfl
@[simp] theorem State.reject_draws (s : State) : (s.reject).draws = s.draws := rfl
@[simp] theorem State.reject_seqOld (s : State) : (s.reject).seqOld = s.seqOld := rfl
@[simp] theorem State.reject_seqKept (s : State) : (s.reject).seqKept = s.seqKept := rfl
@[simp] theorem State.reject_abandoned (s : State) : (s.reject).abandoned = s.abandoned := rfl
@[simp] theorem State.reject_known (s : State) (i : Nat) : (s.reject).known i = s.known i := rfl

/-! ### memWrite -/

@[simp] theorem State.memWrite_st (s : State) (j : Half) (v : Byte) : (s.memWrite j v).st = s.st := rfl
@[simp] theorem State.memWrite_idx (s : State) (j : Half) (v : Byte) : (s.memWrite j v).idx = s.idx := rfl
@[simp] theorem State.memWrite_len (s : State) (j : Half) (v : Byte) : (s.memWrite j v).len = s.len := rfl
@[simp] theorem State.memWrite_cnt (s : State) (j : Half) (v : Byte) : (s.memWrite j v).cnt = s.cnt := rfl
@[simp] theorem State.memWrite_polls (s : State) (j : Half) (v : Byte) : (s.memWrite j v).polls = s.polls := rfl
@[simp] theorem State.memWrite_dataQ (s : State) (j : Half) (v : Byte) : (s.memWrite j v).dataQ = s.dataQ := rfl
@[simp] theorem State.memWrite_strobeQ (s : State) (j : Half) (v : Byte) : (s.memWrite j v).strobeQ = s.strobeQ := rfl
@[simp] theorem State.memWrite_policy (s : State) (j : Half) (v : Byte) : (s.memWrite j v).policy = s.policy := rfl
@[simp] theorem State.memWrite_pstat (s : State) (j : Half) (v : Byte) : (s.memWrite j v).pstat = s.pstat := rfl
@[simp] theorem State.memWrite_pvalid (s : State) (j : Half) (v : Byte) : (s.memWrite j v).pvalid = s.pvalid := rfl
@[simp] theorem State.memWrite_fault (s : State) (j : Half) (v : Byte) : (s.memWrite j v).fault = s.fault := rfl
@[simp] theorem State.memWrite_res (s : State) (j : Half) (v : Byte) : (s.memWrite j v).res = s.res := rfl
@[simp] theorem State.memWrite_rej (s : State) (j : Half) (v : Byte) : (s.memWrite j v).rej = s.rej := rfl
@[simp] theorem State.memWrite_treq (s : State) (j : Half) (v : Byte) : (s.memWrite j v).treq = s.treq := rfl
@[simp] theorem State.memWrite_seq (s : State) (j : Half) (v : Byte) : (s.memWrite j v).seq = s.seq.write j.toNat v := rfl
@[simp] theorem State.memWrite_params (s : State) (j : Half) (v : Byte) : (s.memWrite j v).params = s.params := rfl
@[simp] theorem State.memWrite_hostIn (s : State) (j : Half) (v : Byte) : (s.memWrite j v).hostIn = s.hostIn := rfl
@[simp] theorem State.memWrite_trespIn (s : State) (j : Half) (v : Byte) : (s.memWrite j v).trespIn = s.trespIn := rfl
@[simp] theorem State.memWrite_draws (s : State) (j : Half) (v : Byte) : (s.memWrite j v).draws = s.draws := rfl
@[simp] theorem State.memWrite_seqOld (s : State) (j : Half) (v : Byte) : (s.memWrite j v).seqOld = s.seqOld.filter (· != j.toNat) := rfl
@[simp] theorem State.memWrite_seqKept (s : State) (j : Half) (v : Byte) : (s.memWrite j v).seqKept = s.seqKept := rfl
@[simp] theorem State.memWrite_abandoned (s : State) (j : Half) (v : Byte) : (s.memWrite j v).abandoned = s.abandoned := rfl

/-! ### beginByte -/

@[simp] theorem State.beginByte_st (s : State) (j : Half) : (s.beginByte j).st = .setData := rfl
@[simp] theorem State.beginByte_idx (s : State) (j : Half) : (s.beginByte j).idx = s.idx := rfl
@[simp] theorem State.beginByte_len (s : State) (j : Half) : (s.beginByte j).len = s.len := rfl
@[simp] theorem State.beginByte_cnt (s : State) (j : Half) : (s.beginByte j).cnt = s.cnt := rfl
@[simp] theorem State.beginByte_polls (s : State) (j : Half) : (s.beginByte j).polls = s.polls := rfl
@[simp] theorem State.beginByte_dataQ (s : State) (j : Half) : (s.beginByte j).dataQ = s.dataQ := rfl
@[simp] theorem State.beginByte_strobeQ (s : State) (j : Half) : (s.beginByte j).strobeQ = s.strobeQ := rfl
@[simp] theorem State.beginByte_policy (s : State) (j : Half) : (s.beginByte j).policy = s.policy := rfl
@[simp] theorem State.beginByte_pstat (s : State) (j : Half) : (s.beginByte j).pstat = s.pstat := rfl
@[simp] theorem State.beginByte_pvalid (s : State) (j : Half) : (s.beginByte j).pvalid = s.pvalid := rfl
@[simp] theorem State.beginByte_fault (s : State) (j : Half) : (s.beginByte j).fault = s.fault := rfl
@[simp] theorem State.beginByte_res (s : State) (j : Half) : (s.beginByte j).res = s.res := rfl
@[simp] theorem State.beginByte_rej (s : State) (j : Half) : (s.beginByte j).rej = s.rej := rfl
@[simp] theorem State.beginByte_treq (s : State) (j : Half) : (s.beginByte j).treq = .write s.params.dataAddr (s.memRead j) := rfl
@[simp] theorem State.beginByte_seq (s : State) (j : Half) : (s.beginByte j).seq = s.seq := rfl
@[simp] theorem State.beginByte_params (s : State) (j : Half) : (s.beginByte j).params = s.params := rfl
@[simp] theorem State.beginByte_hostIn (s : State) (j : Half) : (s.beginByte j).hostIn = s.hostIn := rfl
@[simp] theorem State.beginByte_trespIn (s : State) (j : Half) : (s.beginByte j).trespIn = s.trespIn := rfl
@[simp] theorem State.beginByte_draws (s : State) (j : Half) : (s.beginByte j).draws = s.draws := rfl
@[simp] theorem State.beginByte_seqOld (s : State) (j : Half) : (s.beginByte j).seqOld = s.seqOld := rfl
@[simp] theorem State.beginByte_seqKept (s : State) (j : Half) : (s.beginByte j).seqKept = s.seqKept := rfl
@[simp] theorem State.beginByte_abandoned (s : State) (j : Half) : (s.beginByte j).abandoned = s.abandoned := rfl
@[simp] theorem State.beginByte_known (s : State) (j : Half) (i : Nat) : (s.beginByte j).known i = s.known i := rfl

/-! ### enterSettle -/

@[simp] theorem State.enterSettle_st (s : State) : (s.enterSettle).st = .settle := rfl
@[simp] theorem State.enterSettle_idx (s : State) : (s.enterSettle).idx = s.idx := rfl
@[simp] theorem State.enterSettle_len (s : State) : (s.enterSettle).len = s.len := rfl
@[simp] theorem State.enterSettle_cnt (s : State) : (s.enterSettle).cnt = s.params.settleCycles.val := rfl
@[simp] theorem State.enterSettle_polls (s : State) : (s.enterSettle).polls = s.polls := rfl
@[simp] theorem State.enterSettle_dataQ (s : State) : (s.enterSettle).dataQ = s.dataQ := rfl
@[simp] theorem State.enterSettle_strobeQ (s : State) : (s.enterSettle).strobeQ = s.strobeQ := rfl
@[simp] theorem State.enterSettle_policy (s : State) : (s.enterSettle).policy = s.policy := rfl
@[simp] theorem State.enterSettle_pstat (s : State) : (s.enterSettle).pstat = s.pstat := rfl
@[simp] theorem State.enterSettle_pvalid (s : State) : (s.enterSettle).pvalid = s.pvalid := rfl
@[simp] theorem State.enterSettle_fault (s : State) : (s.enterSettle).fault = s.fault := rfl
@[simp] theorem State.enterSettle_res (s : State) : (s.enterSettle).res = s.res := rfl
@[simp] theorem State.enterSettle_rej (s : State) : (s.enterSettle).rej = s.rej := rfl
@[simp] theorem State.enterSettle_treq (s : State) : (s.enterSettle).treq = s.treq := rfl
@[simp] theorem State.enterSettle_seq (s : State) : (s.enterSettle).seq = s.seq := rfl
@[simp] theorem State.enterSettle_params (s : State) : (s.enterSettle).params = s.params := rfl
@[simp] theorem State.enterSettle_hostIn (s : State) : (s.enterSettle).hostIn = s.hostIn := rfl
@[simp] theorem State.enterSettle_trespIn (s : State) : (s.enterSettle).trespIn = s.trespIn := rfl
@[simp] theorem State.enterSettle_draws (s : State) : (s.enterSettle).draws = s.draws := rfl
@[simp] theorem State.enterSettle_seqOld (s : State) : (s.enterSettle).seqOld = s.seqOld := rfl
@[simp] theorem State.enterSettle_seqKept (s : State) : (s.enterSettle).seqKept = s.seqKept := rfl
@[simp] theorem State.enterSettle_abandoned (s : State) : (s.enterSettle).abandoned = s.abandoned := rfl
@[simp] theorem State.enterSettle_known (s : State) (i : Nat) : (s.enterSettle).known i = s.known i := rfl

/-! ### enterStrobe -/

@[simp] theorem State.enterStrobe_st (s : State) : (s.enterStrobe).st = .strobe := rfl
@[simp] theorem State.enterStrobe_idx (s : State) : (s.enterStrobe).idx = s.idx := rfl
@[simp] theorem State.enterStrobe_len (s : State) : (s.enterStrobe).len = s.len := rfl
@[simp] theorem State.enterStrobe_cnt (s : State) : (s.enterStrobe).cnt = s.params.strobeCycles.val := rfl
@[simp] theorem State.enterStrobe_polls (s : State) : (s.enterStrobe).polls = s.polls := rfl
@[simp] theorem State.enterStrobe_dataQ (s : State) : (s.enterStrobe).dataQ = s.dataQ := rfl
@[simp] theorem State.enterStrobe_strobeQ (s : State) : (s.enterStrobe).strobeQ = true := rfl
@[simp] theorem State.enterStrobe_policy (s : State) : (s.enterStrobe).policy = s.policy := rfl
@[simp] theorem State.enterStrobe_pstat (s : State) : (s.enterStrobe).pstat = s.pstat := rfl
@[simp] theorem State.enterStrobe_pvalid (s : State) : (s.enterStrobe).pvalid = s.pvalid := rfl
@[simp] theorem State.enterStrobe_fault (s : State) : (s.enterStrobe).fault = s.fault := rfl
@[simp] theorem State.enterStrobe_res (s : State) : (s.enterStrobe).res = s.res := rfl
@[simp] theorem State.enterStrobe_rej (s : State) : (s.enterStrobe).rej = s.rej := rfl
@[simp] theorem State.enterStrobe_treq (s : State) : (s.enterStrobe).treq = s.treq := rfl
@[simp] theorem State.enterStrobe_seq (s : State) : (s.enterStrobe).seq = s.seq := rfl
@[simp] theorem State.enterStrobe_params (s : State) : (s.enterStrobe).params = s.params := rfl
@[simp] theorem State.enterStrobe_hostIn (s : State) : (s.enterStrobe).hostIn = s.hostIn := rfl
@[simp] theorem State.enterStrobe_trespIn (s : State) : (s.enterStrobe).trespIn = s.trespIn := rfl
@[simp] theorem State.enterStrobe_draws (s : State) : (s.enterStrobe).draws = s.draws := rfl
@[simp] theorem State.enterStrobe_seqOld (s : State) : (s.enterStrobe).seqOld = s.seqOld := rfl
@[simp] theorem State.enterStrobe_seqKept (s : State) : (s.enterStrobe).seqKept = s.seqKept := rfl
@[simp] theorem State.enterStrobe_abandoned (s : State) : (s.enterStrobe).abandoned = s.abandoned := rfl
@[simp] theorem State.enterStrobe_known (s : State) (i : Nat) : (s.enterStrobe).known i = s.known i := rfl

/-! ### enterRelease -/

@[simp] theorem State.enterRelease_st (s : State) : (s.enterRelease).st = .release := rfl
@[simp] theorem State.enterRelease_idx (s : State) : (s.enterRelease).idx = s.idx := rfl
@[simp] theorem State.enterRelease_len (s : State) : (s.enterRelease).len = s.len := rfl
@[simp] theorem State.enterRelease_cnt (s : State) : (s.enterRelease).cnt = s.cnt := rfl
@[simp] theorem State.enterRelease_polls (s : State) : (s.enterRelease).polls = s.polls := rfl
@[simp] theorem State.enterRelease_dataQ (s : State) : (s.enterRelease).dataQ = s.dataQ := rfl
@[simp] theorem State.enterRelease_strobeQ (s : State) : (s.enterRelease).strobeQ = false := rfl
@[simp] theorem State.enterRelease_policy (s : State) : (s.enterRelease).policy = s.policy := rfl
@[simp] theorem State.enterRelease_pstat (s : State) : (s.enterRelease).pstat = s.pstat := rfl
@[simp] theorem State.enterRelease_pvalid (s : State) : (s.enterRelease).pvalid = s.pvalid := rfl
@[simp] theorem State.enterRelease_fault (s : State) : (s.enterRelease).fault = s.fault := rfl
@[simp] theorem State.enterRelease_res (s : State) : (s.enterRelease).res = s.res := rfl
@[simp] theorem State.enterRelease_rej (s : State) : (s.enterRelease).rej = s.rej := rfl
@[simp] theorem State.enterRelease_treq (s : State) : (s.enterRelease).treq = s.treq := rfl
@[simp] theorem State.enterRelease_seq (s : State) : (s.enterRelease).seq = s.seq := rfl
@[simp] theorem State.enterRelease_params (s : State) : (s.enterRelease).params = s.params := rfl
@[simp] theorem State.enterRelease_hostIn (s : State) : (s.enterRelease).hostIn = s.hostIn := rfl
@[simp] theorem State.enterRelease_trespIn (s : State) : (s.enterRelease).trespIn = s.trespIn := rfl
@[simp] theorem State.enterRelease_draws (s : State) : (s.enterRelease).draws = s.draws := rfl
@[simp] theorem State.enterRelease_seqOld (s : State) : (s.enterRelease).seqOld = s.seqOld := rfl
@[simp] theorem State.enterRelease_seqKept (s : State) : (s.enterRelease).seqKept = s.seqKept := rfl
@[simp] theorem State.enterRelease_abandoned (s : State) : (s.enterRelease).abandoned = s.abandoned := rfl
@[simp] theorem State.enterRelease_known (s : State) (i : Nat) : (s.enterRelease).known i = s.known i := rfl

/-! ### enterPollWait -/

@[simp] theorem State.enterPollWait_st (s : State) (p : Half) : (s.enterPollWait p).st = .pollWait := rfl
@[simp] theorem State.enterPollWait_idx (s : State) (p : Half) : (s.enterPollWait p).idx = s.idx := rfl
@[simp] theorem State.enterPollWait_len (s : State) (p : Half) : (s.enterPollWait p).len = s.len := rfl
@[simp] theorem State.enterPollWait_cnt (s : State) (p : Half) : (s.enterPollWait p).cnt = s.params.pollCycles.val := rfl
@[simp] theorem State.enterPollWait_polls (s : State) (p : Half) : (s.enterPollWait p).polls = p := rfl
@[simp] theorem State.enterPollWait_dataQ (s : State) (p : Half) : (s.enterPollWait p).dataQ = s.dataQ := rfl
@[simp] theorem State.enterPollWait_strobeQ (s : State) (p : Half) : (s.enterPollWait p).strobeQ = s.strobeQ := rfl
@[simp] theorem State.enterPollWait_policy (s : State) (p : Half) : (s.enterPollWait p).policy = s.policy := rfl
@[simp] theorem State.enterPollWait_pstat (s : State) (p : Half) : (s.enterPollWait p).pstat = s.pstat := rfl
@[simp] theorem State.enterPollWait_pvalid (s : State) (p : Half) : (s.enterPollWait p).pvalid = s.pvalid := rfl
@[simp] theorem State.enterPollWait_fault (s : State) (p : Half) : (s.enterPollWait p).fault = s.fault := rfl
@[simp] theorem State.enterPollWait_res (s : State) (p : Half) : (s.enterPollWait p).res = s.res := rfl
@[simp] theorem State.enterPollWait_rej (s : State) (p : Half) : (s.enterPollWait p).rej = s.rej := rfl
@[simp] theorem State.enterPollWait_treq (s : State) (p : Half) : (s.enterPollWait p).treq = s.treq := rfl
@[simp] theorem State.enterPollWait_seq (s : State) (p : Half) : (s.enterPollWait p).seq = s.seq := rfl
@[simp] theorem State.enterPollWait_params (s : State) (p : Half) : (s.enterPollWait p).params = s.params := rfl
@[simp] theorem State.enterPollWait_hostIn (s : State) (p : Half) : (s.enterPollWait p).hostIn = s.hostIn := rfl
@[simp] theorem State.enterPollWait_trespIn (s : State) (p : Half) : (s.enterPollWait p).trespIn = s.trespIn := rfl
@[simp] theorem State.enterPollWait_draws (s : State) (p : Half) : (s.enterPollWait p).draws = s.draws := rfl
@[simp] theorem State.enterPollWait_seqOld (s : State) (p : Half) : (s.enterPollWait p).seqOld = s.seqOld := rfl
@[simp] theorem State.enterPollWait_seqKept (s : State) (p : Half) : (s.enterPollWait p).seqKept = s.seqKept := rfl
@[simp] theorem State.enterPollWait_abandoned (s : State) (p : Half) : (s.enterPollWait p).abandoned = s.abandoned := rfl
@[simp] theorem State.enterPollWait_known (s : State) (p : Half) (i : Nat) : (s.enterPollWait p).known i = s.known i := rfl

/-! ### enterPoll -/

@[simp] theorem State.enterPoll_st (s : State) : (s.enterPoll).st = .poll := rfl
@[simp] theorem State.enterPoll_idx (s : State) : (s.enterPoll).idx = s.idx := rfl
@[simp] theorem State.enterPoll_len (s : State) : (s.enterPoll).len = s.len := rfl
@[simp] theorem State.enterPoll_cnt (s : State) : (s.enterPoll).cnt = s.cnt := rfl
@[simp] theorem State.enterPoll_polls (s : State) : (s.enterPoll).polls = s.polls := rfl
@[simp] theorem State.enterPoll_dataQ (s : State) : (s.enterPoll).dataQ = s.dataQ := rfl
@[simp] theorem State.enterPoll_strobeQ (s : State) : (s.enterPoll).strobeQ = s.strobeQ := rfl
@[simp] theorem State.enterPoll_policy (s : State) : (s.enterPoll).policy = s.policy := rfl
@[simp] theorem State.enterPoll_pstat (s : State) : (s.enterPoll).pstat = s.pstat := rfl
@[simp] theorem State.enterPoll_pvalid (s : State) : (s.enterPoll).pvalid = s.pvalid := rfl
@[simp] theorem State.enterPoll_fault (s : State) : (s.enterPoll).fault = s.fault := rfl
@[simp] theorem State.enterPoll_res (s : State) : (s.enterPoll).res = s.res := rfl
@[simp] theorem State.enterPoll_rej (s : State) : (s.enterPoll).rej = s.rej := rfl
@[simp] theorem State.enterPoll_treq (s : State) : (s.enterPoll).treq = .read s.params.statusAddr := rfl
@[simp] theorem State.enterPoll_seq (s : State) : (s.enterPoll).seq = s.seq := rfl
@[simp] theorem State.enterPoll_params (s : State) : (s.enterPoll).params = s.params := rfl
@[simp] theorem State.enterPoll_hostIn (s : State) : (s.enterPoll).hostIn = s.hostIn := rfl
@[simp] theorem State.enterPoll_trespIn (s : State) : (s.enterPoll).trespIn = s.trespIn := rfl
@[simp] theorem State.enterPoll_draws (s : State) : (s.enterPoll).draws = s.draws := rfl
@[simp] theorem State.enterPoll_seqOld (s : State) : (s.enterPoll).seqOld = s.seqOld := rfl
@[simp] theorem State.enterPoll_seqKept (s : State) : (s.enterPoll).seqKept = s.seqKept := rfl
@[simp] theorem State.enterPoll_abandoned (s : State) : (s.enterPoll).abandoned = s.abandoned := rfl
@[simp] theorem State.enterPoll_known (s : State) (i : Nat) : (s.enterPoll).known i = s.known i := rfl

/-! ### finish -/

@[simp] theorem State.finish_st (s : State) (c : ResultCode) (ph : BitVec 1) (f : DeviceFlags) (k : Half) : (s.finish c ph f k).st = .done := rfl
@[simp] theorem State.finish_idx (s : State) (c : ResultCode) (ph : BitVec 1) (f : DeviceFlags) (k : Half) : (s.finish c ph f k).idx = s.idx := rfl
@[simp] theorem State.finish_len (s : State) (c : ResultCode) (ph : BitVec 1) (f : DeviceFlags) (k : Half) : (s.finish c ph f k).len = s.len := rfl
@[simp] theorem State.finish_cnt (s : State) (c : ResultCode) (ph : BitVec 1) (f : DeviceFlags) (k : Half) : (s.finish c ph f k).cnt = s.cnt := rfl
@[simp] theorem State.finish_polls (s : State) (c : ResultCode) (ph : BitVec 1) (f : DeviceFlags) (k : Half) : (s.finish c ph f k).polls = s.polls := rfl
@[simp] theorem State.finish_dataQ (s : State) (c : ResultCode) (ph : BitVec 1) (f : DeviceFlags) (k : Half) : (s.finish c ph f k).dataQ = s.dataQ := rfl
@[simp] theorem State.finish_strobeQ (s : State) (c : ResultCode) (ph : BitVec 1) (f : DeviceFlags) (k : Half) : (s.finish c ph f k).strobeQ = s.strobeQ := rfl
@[simp] theorem State.finish_policy (s : State) (c : ResultCode) (ph : BitVec 1) (f : DeviceFlags) (k : Half) : (s.finish c ph f k).policy = s.policy := rfl
@[simp] theorem State.finish_pstat (s : State) (c : ResultCode) (ph : BitVec 1) (f : DeviceFlags) (k : Half) : (s.finish c ph f k).pstat = s.pstat := rfl
@[simp] theorem State.finish_pvalid (s : State) (c : ResultCode) (ph : BitVec 1) (f : DeviceFlags) (k : Half) : (s.finish c ph f k).pvalid = s.pvalid := rfl
@[simp] theorem State.finish_fault (s : State) (c : ResultCode) (ph : BitVec 1) (f : DeviceFlags) (k : Half) : (s.finish c ph f k).fault = s.fault := rfl
@[simp] theorem State.finish_res (s : State) (c : ResultCode) (ph : BitVec 1) (f : DeviceFlags) (k : Half) : (s.finish c ph f k).res = ⟨c, ph, f, k⟩ := rfl
@[simp] theorem State.finish_rej (s : State) (c : ResultCode) (ph : BitVec 1) (f : DeviceFlags) (k : Half) : (s.finish c ph f k).rej = s.rej := rfl
@[simp] theorem State.finish_treq (s : State) (c : ResultCode) (ph : BitVec 1) (f : DeviceFlags) (k : Half) : (s.finish c ph f k).treq = .none := rfl
@[simp] theorem State.finish_seq (s : State) (c : ResultCode) (ph : BitVec 1) (f : DeviceFlags) (k : Half) : (s.finish c ph f k).seq = s.seq := rfl
@[simp] theorem State.finish_params (s : State) (c : ResultCode) (ph : BitVec 1) (f : DeviceFlags) (k : Half) : (s.finish c ph f k).params = s.params := rfl
@[simp] theorem State.finish_hostIn (s : State) (c : ResultCode) (ph : BitVec 1) (f : DeviceFlags) (k : Half) : (s.finish c ph f k).hostIn = s.hostIn := rfl
@[simp] theorem State.finish_trespIn (s : State) (c : ResultCode) (ph : BitVec 1) (f : DeviceFlags) (k : Half) : (s.finish c ph f k).trespIn = s.trespIn := rfl
@[simp] theorem State.finish_draws (s : State) (c : ResultCode) (ph : BitVec 1) (f : DeviceFlags) (k : Half) : (s.finish c ph f k).draws = s.draws := rfl
@[simp] theorem State.finish_seqOld (s : State) (c : ResultCode) (ph : BitVec 1) (f : DeviceFlags) (k : Half) : (s.finish c ph f k).seqOld = s.seqOld := rfl
@[simp] theorem State.finish_seqKept (s : State) (c : ResultCode) (ph : BitVec 1) (f : DeviceFlags) (k : Half) : (s.finish c ph f k).seqKept = s.seqKept := rfl
@[simp] theorem State.finish_abandoned (s : State) (c : ResultCode) (ph : BitVec 1) (f : DeviceFlags) (k : Half) : (s.finish c ph f k).abandoned = s.abandoned := rfl
@[simp] theorem State.finish_known (s : State) (c : ResultCode) (ph : BitVec 1) (f : DeviceFlags) (k : Half) (i : Nat) : (s.finish c ph f k).known i = s.known i := rfl

/-! ### enterDecision -/

@[simp] theorem State.enterDecision_st (s : State) (r : FaultReasons) : (s.enterDecision r).st = .faultWait := rfl
@[simp] theorem State.enterDecision_idx (s : State) (r : FaultReasons) : (s.enterDecision r).idx = s.idx := rfl
@[simp] theorem State.enterDecision_len (s : State) (r : FaultReasons) : (s.enterDecision r).len = s.len := rfl
@[simp] theorem State.enterDecision_cnt (s : State) (r : FaultReasons) : (s.enterDecision r).cnt = s.cnt := rfl
@[simp] theorem State.enterDecision_polls (s : State) (r : FaultReasons) : (s.enterDecision r).polls = s.polls := rfl
@[simp] theorem State.enterDecision_dataQ (s : State) (r : FaultReasons) : (s.enterDecision r).dataQ = s.dataQ := rfl
@[simp] theorem State.enterDecision_strobeQ (s : State) (r : FaultReasons) : (s.enterDecision r).strobeQ = s.strobeQ := rfl
@[simp] theorem State.enterDecision_policy (s : State) (r : FaultReasons) : (s.enterDecision r).policy = s.policy := rfl
@[simp] theorem State.enterDecision_pstat (s : State) (r : FaultReasons) : (s.enterDecision r).pstat = s.pstat := rfl
@[simp] theorem State.enterDecision_pvalid (s : State) (r : FaultReasons) : (s.enterDecision r).pvalid = s.pvalid := rfl
@[simp] theorem State.enterDecision_fault (s : State) (r : FaultReasons) : (s.enterDecision r).fault = r := rfl
@[simp] theorem State.enterDecision_res (s : State) (r : FaultReasons) : (s.enterDecision r).res = s.res := rfl
@[simp] theorem State.enterDecision_rej (s : State) (r : FaultReasons) : (s.enterDecision r).rej = s.rej := rfl
@[simp] theorem State.enterDecision_treq (s : State) (r : FaultReasons) : (s.enterDecision r).treq = s.treq := rfl
@[simp] theorem State.enterDecision_seq (s : State) (r : FaultReasons) : (s.enterDecision r).seq = s.seq := rfl
@[simp] theorem State.enterDecision_params (s : State) (r : FaultReasons) : (s.enterDecision r).params = s.params := rfl
@[simp] theorem State.enterDecision_hostIn (s : State) (r : FaultReasons) : (s.enterDecision r).hostIn = s.hostIn := rfl
@[simp] theorem State.enterDecision_trespIn (s : State) (r : FaultReasons) : (s.enterDecision r).trespIn = s.trespIn := rfl
@[simp] theorem State.enterDecision_draws (s : State) (r : FaultReasons) : (s.enterDecision r).draws = s.draws := rfl
@[simp] theorem State.enterDecision_seqOld (s : State) (r : FaultReasons) : (s.enterDecision r).seqOld = s.seqOld := rfl
@[simp] theorem State.enterDecision_seqKept (s : State) (r : FaultReasons) : (s.enterDecision r).seqKept = s.seqKept := rfl
@[simp] theorem State.enterDecision_abandoned (s : State) (r : FaultReasons) : (s.enterDecision r).abandoned = s.abandoned := rfl
@[simp] theorem State.enterDecision_known (s : State) (r : FaultReasons) (i : Nat) : (s.enterDecision r).known i = s.known i := rfl

/-! ### resume -/

@[simp] theorem State.resume_st (s : State) : (s.resume).st = .pollWait := rfl
@[simp] theorem State.resume_idx (s : State) : (s.resume).idx = s.idx := rfl
@[simp] theorem State.resume_len (s : State) : (s.resume).len = s.len := rfl
@[simp] theorem State.resume_cnt (s : State) : (s.resume).cnt = s.params.pollCycles.val := rfl
@[simp] theorem State.resume_polls (s : State) : (s.resume).polls = 0#16 := rfl
@[simp] theorem State.resume_dataQ (s : State) : (s.resume).dataQ = s.dataQ := rfl
@[simp] theorem State.resume_strobeQ (s : State) : (s.resume).strobeQ = s.strobeQ := rfl
@[simp] theorem State.resume_policy (s : State) : (s.resume).policy = s.policy := rfl
@[simp] theorem State.resume_pstat (s : State) : (s.resume).pstat = s.pstat := rfl
@[simp] theorem State.resume_pvalid (s : State) : (s.resume).pvalid = s.pvalid := rfl
@[simp] theorem State.resume_fault (s : State) : (s.resume).fault = s.fault := rfl
@[simp] theorem State.resume_res (s : State) : (s.resume).res = s.res := rfl
@[simp] theorem State.resume_rej (s : State) : (s.resume).rej = s.rej := rfl
@[simp] theorem State.resume_treq (s : State) : (s.resume).treq = s.treq := rfl
@[simp] theorem State.resume_seq (s : State) : (s.resume).seq = s.seq := rfl
@[simp] theorem State.resume_params (s : State) : (s.resume).params = s.params := rfl
@[simp] theorem State.resume_hostIn (s : State) : (s.resume).hostIn = s.hostIn := rfl
@[simp] theorem State.resume_trespIn (s : State) : (s.resume).trespIn = s.trespIn := rfl
@[simp] theorem State.resume_draws (s : State) : (s.resume).draws = s.draws := rfl
@[simp] theorem State.resume_seqOld (s : State) : (s.resume).seqOld = s.seqOld := rfl
@[simp] theorem State.resume_seqKept (s : State) : (s.resume).seqKept = s.seqKept := rfl
@[simp] theorem State.resume_abandoned (s : State) : (s.resume).abandoned = s.abandoned := rfl
@[simp] theorem State.resume_known (s : State) (i : Nat) : (s.resume).known i = s.known i := rfl

/-! ### loadTransfer -/

@[simp] theorem State.loadTransfer_st (s : State) (n : Half) : (s.loadTransfer n).st = s.st := rfl
@[simp] theorem State.loadTransfer_idx (s : State) (n : Half) : (s.loadTransfer n).idx = 0#16 := rfl
@[simp] theorem State.loadTransfer_len (s : State) (n : Half) : (s.loadTransfer n).len = n := rfl
@[simp] theorem State.loadTransfer_cnt (s : State) (n : Half) : (s.loadTransfer n).cnt = s.cnt := rfl
@[simp] theorem State.loadTransfer_polls (s : State) (n : Half) : (s.loadTransfer n).polls = s.polls := rfl
@[simp] theorem State.loadTransfer_dataQ (s : State) (n : Half) : (s.loadTransfer n).dataQ = s.dataQ := rfl
@[simp] theorem State.loadTransfer_strobeQ (s : State) (n : Half) : (s.loadTransfer n).strobeQ = s.strobeQ := rfl
@[simp] theorem State.loadTransfer_policy (s : State) (n : Half) : (s.loadTransfer n).policy = s.policy := rfl
@[simp] theorem State.loadTransfer_pstat (s : State) (n : Half) : (s.loadTransfer n).pstat = s.pstat := rfl
@[simp] theorem State.loadTransfer_pvalid (s : State) (n : Half) : (s.loadTransfer n).pvalid = s.pvalid := rfl
@[simp] theorem State.loadTransfer_fault (s : State) (n : Half) : (s.loadTransfer n).fault = noReasons := rfl
@[simp] theorem State.loadTransfer_res (s : State) (n : Half) : (s.loadTransfer n).res = s.res := rfl
@[simp] theorem State.loadTransfer_rej (s : State) (n : Half) : (s.loadTransfer n).rej = s.rej := rfl
@[simp] theorem State.loadTransfer_treq (s : State) (n : Half) : (s.loadTransfer n).treq = s.treq := rfl
@[simp] theorem State.loadTransfer_seq (s : State) (n : Half) : (s.loadTransfer n).seq = s.seq := rfl
@[simp] theorem State.loadTransfer_params (s : State) (n : Half) : (s.loadTransfer n).params = s.params := rfl
@[simp] theorem State.loadTransfer_hostIn (s : State) (n : Half) : (s.loadTransfer n).hostIn = s.hostIn := rfl
@[simp] theorem State.loadTransfer_trespIn (s : State) (n : Half) : (s.loadTransfer n).trespIn = s.trespIn := rfl
@[simp] theorem State.loadTransfer_draws (s : State) (n : Half) : (s.loadTransfer n).draws = s.draws := rfl
@[simp] theorem State.loadTransfer_seqOld (s : State) (n : Half) : (s.loadTransfer n).seqOld = s.seqOld := rfl
@[simp] theorem State.loadTransfer_seqKept (s : State) (n : Half) : (s.loadTransfer n).seqKept = s.seqKept := rfl
@[simp] theorem State.loadTransfer_abandoned (s : State) (n : Half) : (s.loadTransfer n).abandoned = s.abandoned := rfl
@[simp] theorem State.loadTransfer_known (s : State) (n : Half) (i : Nat) : (s.loadTransfer n).known i = s.known i := rfl

/-! ### resetElements -/

@[simp] theorem State.resetElements_st (s : State) : (s.resetElements).st = .idle := rfl
@[simp] theorem State.resetElements_idx (s : State) : (s.resetElements).idx = 0#16 := rfl
@[simp] theorem State.resetElements_len (s : State) : (s.resetElements).len = 0#16 := rfl
@[simp] theorem State.resetElements_cnt (s : State) : (s.resetElements).cnt = 0#16 := rfl
@[simp] theorem State.resetElements_polls (s : State) : (s.resetElements).polls = 0#16 := rfl
@[simp] theorem State.resetElements_dataQ (s : State) : (s.resetElements).dataQ = none := rfl
@[simp] theorem State.resetElements_strobeQ (s : State) : (s.resetElements).strobeQ = false := rfl
@[simp] theorem State.resetElements_policy (s : State) : (s.resetElements).policy = .none := rfl
@[simp] theorem State.resetElements_pstat (s : State) : (s.resetElements).pstat = ⟨false, false, false, false, false⟩ := rfl
@[simp] theorem State.resetElements_pvalid (s : State) : (s.resetElements).pvalid = false := rfl
@[simp] theorem State.resetElements_fault (s : State) : (s.resetElements).fault = noReasons := rfl
@[simp] theorem State.resetElements_res (s : State) : (s.resetElements).res = noResult := rfl
@[simp] theorem State.resetElements_rej (s : State) : (s.resetElements).rej = false := rfl
@[simp] theorem State.resetElements_treq (s : State) : (s.resetElements).treq = .none := rfl
@[simp] theorem State.resetElements_seq (s : State) : (s.resetElements).seq = s.seq := rfl
@[simp] theorem State.resetElements_params (s : State) : (s.resetElements).params = s.params := rfl
@[simp] theorem State.resetElements_hostIn (s : State) : (s.resetElements).hostIn = s.hostIn := rfl
@[simp] theorem State.resetElements_trespIn (s : State) : (s.resetElements).trespIn = s.trespIn := rfl
@[simp] theorem State.resetElements_draws (s : State) : (s.resetElements).draws = s.draws := rfl
@[simp] theorem State.resetElements_seqOld (s : State) : (s.resetElements).seqOld = s.seq.map Prod.fst := rfl
@[simp] theorem State.resetElements_seqKept (s : State) : (s.resetElements).seqKept = s.seqKept := rfl
@[simp] theorem State.resetElements_abandoned (s : State) : (s.resetElements).abandoned = s.abandoned := rfl

/-! ### tick -/

@[simp] theorem State.tick_st (s : State) (x : State) : (s.tick x).st = x.st := rfl
@[simp] theorem State.tick_idx (s : State) (x : State) : (s.tick x).idx = x.idx := rfl
@[simp] theorem State.tick_len (s : State) (x : State) : (s.tick x).len = x.len := rfl
@[simp] theorem State.tick_cnt (s : State) (x : State) : (s.tick x).cnt = x.cnt := rfl
@[simp] theorem State.tick_polls (s : State) (x : State) : (s.tick x).polls = x.polls := rfl
@[simp] theorem State.tick_dataQ (s : State) (x : State) : (s.tick x).dataQ = x.dataQ := rfl
@[simp] theorem State.tick_strobeQ (s : State) (x : State) : (s.tick x).strobeQ = x.strobeQ := rfl
@[simp] theorem State.tick_policy (s : State) (x : State) : (s.tick x).policy = x.policy := rfl
@[simp] theorem State.tick_pstat (s : State) (x : State) : (s.tick x).pstat = x.pstat := rfl
@[simp] theorem State.tick_pvalid (s : State) (x : State) : (s.tick x).pvalid = x.pvalid := rfl
@[simp] theorem State.tick_fault (s : State) (x : State) : (s.tick x).fault = x.fault := rfl
@[simp] theorem State.tick_res (s : State) (x : State) : (s.tick x).res = x.res := rfl
@[simp] theorem State.tick_rej (s : State) (x : State) : (s.tick x).rej = x.rej := rfl
@[simp] theorem State.tick_treq (s : State) (x : State) : (s.tick x).treq = x.treq := rfl
@[simp] theorem State.tick_seq (s : State) (x : State) : (s.tick x).seq = x.seq := rfl
@[simp] theorem State.tick_params (s : State) (x : State) : (s.tick x).params = x.params := rfl
@[simp] theorem State.tick_hostIn (s : State) (x : State) : (s.tick x).hostIn = s.hostIn.tail := rfl
@[simp] theorem State.tick_trespIn (s : State) (x : State) : (s.tick x).trespIn = s.trespIn.tail := rfl
@[simp] theorem State.tick_draws (s : State) (x : State) : (s.tick x).draws = s.draws + 1 := rfl
@[simp] theorem State.tick_seqOld (s : State) (x : State) : (s.tick x).seqOld = x.seqOld := rfl
@[simp] theorem State.tick_seqKept (s : State) (x : State) : (s.tick x).seqKept = x.seqKept := rfl
@[simp] theorem State.tick_abandoned (s : State) (x : State) : (s.tick x).abandoned = if x.treq = .none then s.stillOwed else .none := rfl
@[simp] theorem State.tick_known (s : State) (x : State) (i : Nat) : (s.tick x).known i = x.known i := rfl

/-! ### withCommand -/

@[simp] theorem State.withCommand_st (s : State) (w : Word) : (s.withCommand w).st = s.st := rfl
@[simp] theorem State.withCommand_idx (s : State) (w : Word) : (s.withCommand w).idx = s.idx := rfl
@[simp] theorem State.withCommand_len (s : State) (w : Word) : (s.withCommand w).len = s.len := rfl
@[simp] theorem State.withCommand_cnt (s : State) (w : Word) : (s.withCommand w).cnt = s.cnt := rfl
@[simp] theorem State.withCommand_polls (s : State) (w : Word) : (s.withCommand w).polls = s.polls := rfl
@[simp] theorem State.withCommand_dataQ (s : State) (w : Word) : (s.withCommand w).dataQ = s.dataQ := rfl
@[simp] theorem State.withCommand_strobeQ (s : State) (w : Word) : (s.withCommand w).strobeQ = s.strobeQ := rfl
@[simp] theorem State.withCommand_policy (s : State) (w : Word) : (s.withCommand w).policy = s.policy := rfl
@[simp] theorem State.withCommand_pstat (s : State) (w : Word) : (s.withCommand w).pstat = s.pstat := rfl
@[simp] theorem State.withCommand_pvalid (s : State) (w : Word) : (s.withCommand w).pvalid = s.pvalid := rfl
@[simp] theorem State.withCommand_fault (s : State) (w : Word) : (s.withCommand w).fault = s.fault := rfl
@[simp] theorem State.withCommand_res (s : State) (w : Word) : (s.withCommand w).res = s.res := rfl
@[simp] theorem State.withCommand_rej (s : State) (w : Word) : (s.withCommand w).rej = s.rej := rfl
@[simp] theorem State.withCommand_treq (s : State) (w : Word) : (s.withCommand w).treq = s.treq := rfl
@[simp] theorem State.withCommand_seq (s : State) (w : Word) : (s.withCommand w).seq = s.seq := rfl
@[simp] theorem State.withCommand_params (s : State) (w : Word) : (s.withCommand w).params = s.params := rfl
@[simp] theorem State.withCommand_hostIn (s : State) (w : Word) : (s.withCommand w).hostIn = ⟨false, .write 0x00#8 w⟩ :: s.hostIn.tail := rfl
@[simp] theorem State.withCommand_trespIn (s : State) (w : Word) : (s.withCommand w).trespIn = s.trespIn := rfl
@[simp] theorem State.withCommand_draws (s : State) (w : Word) : (s.withCommand w).draws = s.draws := rfl
@[simp] theorem State.withCommand_seqOld (s : State) (w : Word) : (s.withCommand w).seqOld = s.seqOld := rfl
@[simp] theorem State.withCommand_seqKept (s : State) (w : Word) : (s.withCommand w).seqKept = s.seqKept := rfl
@[simp] theorem State.withCommand_abandoned (s : State) (w : Word) : (s.withCommand w).abandoned = s.abandoned := rfl
@[simp] theorem State.withCommand_known (s : State) (w : Word) (i : Nat) : (s.withCommand w).known i = s.known i := rfl

end Sys2Proof.Machine
end

