-- ==== Sys2Proof/Laws/Memory.lean ====
section
/-! SUPPORT. Laws/Memory.lean: SEQ reads back what was written, other indices are left alone, every write keeps the canonical
form, and what a byte is known to hold after a write and after a reset. -/
namespace Sys2Proof.Machine

theorem Memory.lookup_write_same (m : Memory) (j : Nat) (v : Byte) : (m.write j v).lookup j = some v := by
  induction m with
  | nil => simp [Memory.write, Memory.lookup]
  | cons c m ih =>
    obtain ⟨i, b⟩ := c
    unfold Memory.write
    split
    · simp [Memory.lookup]
    · split
      · simp [Memory.lookup]
      · next h1 h2 =>
        have : ¬ i = j := fun h => h2 h.symm
        simp [Memory.lookup, this, ih]

theorem Memory.lookup_write_other (m : Memory) {j k : Nat} (v : Byte) (h : k ≠ j) :
    (m.write j v).lookup k = m.lookup k := by
  have hj : ¬ j = k := fun e => h e.symm
  induction m with
  | nil => simp [Memory.write, Memory.lookup, hj]
  | cons c m ih =>
    obtain ⟨i, b⟩ := c
    unfold Memory.write
    split
    · simp [Memory.lookup, hj]
    · split
      · next _ he => subst he; simp [Memory.lookup, hj]
      · simp [Memory.lookup, ih]

/-- A read after a write, at every index. -/
theorem Memory.lookup_write (m : Memory) (j k : Nat) (v : Byte) :
    (m.write j v).lookup k = if k = j then some v else m.lookup k := by
  split
  · next h => subst h; exact m.lookup_write_same k v
  · next h => exact m.lookup_write_other v h

theorem Memory.risesFrom_write {m : Memory} {lo j : Nat} (v : Byte) (hm : m.risesFrom lo = true) (hj : lo < j) :
    (m.write j v).risesFrom lo = true := by
  induction m generalizing lo with
  | nil => simp [Memory.write, Memory.risesFrom, hj]
  | cons c m ih =>
    obtain ⟨i, b⟩ := c
    simp only [Memory.risesFrom, Bool.and_eq_true, decide_eq_true_eq] at hm
    unfold Memory.write
    split
    · next h => simp [Memory.risesFrom, hj, h, hm.2]
    · split
      · next h => subst h; simp [Memory.risesFrom, hj, hm.2]
      · next h1 h2 =>
        have : i < j := by omega
        simp [Memory.risesFrom, hm.1, ih hm.2 this]

/-- Every write keeps the canonical form. -/
theorem Memory.wf_write {m : Memory} (j : Nat) (v : Byte) (hm : m.wf = true) : (m.write j v).wf = true := by
  cases m with
  | nil => simp [Memory.write, Memory.wf, Memory.risesFrom]
  | cons c m =>
    obtain ⟨i, b⟩ := c
    simp only [Memory.wf] at hm
    unfold Memory.write
    split
    · next h => simp [Memory.wf, Memory.risesFrom, h, hm]
    · split
      · next h => subst h; simpa [Memory.wf] using hm
      · next h1 h2 =>
        have : i < j := by omega
        simpa [Memory.wf] using Memory.risesFrom_write v hm this

theorem Memory.below_write {m : Memory} {limit j : Nat} (v : Byte) (hm : m.below limit = true) (hj : j < limit) :
    (m.write j v).below limit = true := by
  induction m with
  | nil => simp [Memory.write, Memory.below, hj]
  | cons c m ih =>
    obtain ⟨i, b⟩ := c
    simp only [Memory.below, List.all_cons, Bool.and_eq_true, decide_eq_true_eq] at hm ih ⊢
    unfold Memory.write
    split
    · simp [hj, hm]
    · split
      · simp [hj, hm.2]
      · simp [hm.1, ih hm.2]

/-- Reset memory lists nothing and is canonical. -/
theorem reset_seq_wf : State.reset.seq.wf = true := rfl

/-- Reset keeps SEQ (70_reset_and_hazards.md rule R190), so its form. -/
theorem resetElements_seq_wf {s : State} (h : s.seq.wf = true) : s.resetElements.seq.wf = true := h

theorem memWrite_seq_wf {s : State} (j : Half) (v : Byte) (h : s.seq.wf = true) : (s.memWrite j v).seq.wf = true :=
  Memory.wf_write j.toNat v h

/-! ### What a byte is known to hold (log 19) -/

/-- A write inserts its index or replaces its byte. -/
theorem Memory.indices_write (m : Memory) (j : Nat) (v : Byte) : (m.map Prod.fst).Sublist ((m.write j v).map Prod.fst) := by
  induction m with
  | nil => simp
  | cons c m ih =>
    obtain ⟨i, b⟩ := c
    unfold Memory.write
    split
    · simp
    · split
      · next h => simp [h]
      · simpa using ih

theorem Memory.lookup_eq_none {m : Memory} {j : Nat} (h : j ∉ m.map Prod.fst) : m.lookup j = none := by
  induction m with
  | nil => rfl
  | cons c m ih =>
    obtain ⟨i, b⟩ := c
    simp only [List.map_cons, List.mem_cons, not_or] at h
    simp only [Memory.lookup, if_neg (Ne.symm h.1), ih h.2]

theorem known_of_kept {s : State} (h : s.seqKept = true) (j : Nat) : s.known j = s.seq.lookup j := by
  simp [State.known, h]

theorem known_of_fresh {s : State} {j : Nat} (h : j ∉ s.seqOld) : s.known j = s.seq.lookup j := by
  simp [State.known, h]

/-- A byte known is the one written. -/
theorem lookup_of_known {s : State} {j : Nat} {b : Byte} (h : s.known j = some b) : s.seq.lookup j = some b := by
  unfold State.known at h
  split at h
  · cases h
  · exact h

/-- `known` is a function of three fields. -/
theorem known_congr {s t : State} (h1 : t.seq = s.seq) (h2 : t.seqOld = s.seqOld) (h3 : t.seqKept = s.seqKept) (j : Nat) :
    t.known j = s.known j := by
  simp only [State.known, h1, h2, h3]

/-- A known byte is what a MemRead returns. -/
theorem memRead_of_known {s : State} {j : Half} {b : Byte} (h : s.known j.toNat = some b) : s.memRead j = b := by
  simp [State.memRead, h]

/-- A byte after a WRBUF, at every index. -/
theorem known_memWrite (s : State) (a : Half) (v : Byte) (j : Nat) :
    (s.memWrite a v).known j = if j = a.toNat then some v else s.known j := by
  unfold State.known
  simp only [State.memWrite_seq, State.memWrite_seqOld, State.memWrite_seqKept, Memory.lookup_write]
  by_cases h : j = a.toNat
  · simp [h]
  · simp [h]

/-- A byte after a reset. -/
theorem known_resetElements (s : State) (j : Nat) :
    s.resetElements.known j = if s.seqKept = true then s.seq.lookup j else none := by
  unfold State.known
  simp only [State.resetElements_seq, State.resetElements_seqOld, State.resetElements_seqKept]
  by_cases hk : s.seqKept = true
  · simp [hk]
  · by_cases hj : j ∈ s.seq.map Prod.fst
    · simp [hk, hj]
    · simp [Memory.lookup_eq_none hj]

/-- A write keeps the old indices among the written ones. -/
theorem memWrite_seqOld_sublist {s : State} (h : s.seqOld.Sublist (s.seq.map Prod.fst)) (a : Half) (v : Byte) :
    (s.memWrite a v).seqOld.Sublist ((s.memWrite a v).seq.map Prod.fst) :=
  (List.filter_sublist.trans h).trans (s.seq.indices_write a.toNat v)

/-! ### The written indices and the byte values (41_handshake_engine.md rule R128) -/

theorem Memory.hideBytes_write (m : Memory) (j : Nat) (v w : Byte) :
    (m.write j v).hideBytes = (m.hideBytes.write j w).hideBytes := by
  induction m with
  | nil => rfl
  | cons c m ih =>
    obtain ⟨i, b⟩ := c
    simp only [Memory.hideBytes, List.map_cons, Memory.write] at *
    split
    · simp
    · split <;> simp [ih]

end Sys2Proof.Machine
end

