-- ==== Sys2Proof/Laws/Commands.lean ====
section
/-! SUPPORT. Laws/Commands.lean: what each command can do, once for each: accepted, with its next state, or rejected; and that a
command in a state where the engine moves touches `rej` alone. -/
namespace Sys2Proof.Machine

open EngineState

@[simp] theorem betweenTransfers_iff (st : EngineState) : st.betweenTransfers = true ↔ st = .idle ∨ st = .done := by
  cases st <;> simp [betweenTransfers]

@[simp] theorem atDecision_iff (st : EngineState) : st.atDecision = true ↔ st = .faultWait := by
  cases st <;> simp [atDecision]

@[simp] theorem inert_iff (st : EngineState) : st.inert = true ↔ st = .idle ∨ st = .faultWait ∨ st = .done := by
  cases st <;> simp [inert, betweenTransfers, atDecision]

theorem not_between_of_active {st : EngineState} (h : st.inert = false) : st.betweenTransfers = false := by
  cases st <;> simp_all [inert, betweenTransfers, atDecision]

theorem not_decision_of_active {st : EngineState} (h : st.inert = false) : st.atDecision = false := by
  cases st <;> simp_all [inert, betweenTransfers, atDecision]

@[simp] theorem lengthFits_iff (s : State) (n : Half) : s.lengthFits n = true ↔ n.toNat ≤ s.params.seqMax.toNat := by
  simp [State.lengthFits]

@[simp] theorem indexFits_iff (s : State) (a : Half) : s.indexFits a = true ↔ a.toNat < s.params.seqMax.toNat := by
  simp [State.indexFits]

/-- The next state of a command: every meaning answers one. -/
def commandState (i : Instr) (s : State) : State :=
  match exec i s with
  | .next t    => t
  | .fault _   => s
  | .refused _ => s

theorem exec_eq_commandState (i : Instr) (s : State) : exec i s = .next (commandState i s) := by
  cases i <;> rfl

/-- In a state where the engine moves, a command does nothing but set `rej`, and NOP not even that. -/
theorem exec_active {s : State} (i : Instr) (h : s.st.inert = false) :
    exec i s = .next s ∨ exec i s = .next s.reject := by
  have hb := not_between_of_active h
  have hd := not_decision_of_active h
  cases i with
  | nop => exact .inl rfl
  | send n => right; simp [exec, execSend, hb]
  | retry => right; simp [exec, execRetry, hd]
  | abort => right; simp [exec, execAbort, hd]
  | setle pol =>
    right
    simp only [exec, execSetle]
    cases LinePolicy.ofBits pol <;> simp [hb]
  | ack => right; simp [exec, execAck, hb]
  | wrbuf a v => right; simp [exec, execWrbuf, hb]

/-- A command the table rejects sets `rej` and does nothing else (42_host_commands.md rule R149). -/
theorem exec_rejected {s : State} {i : Instr} (h : ¬ acceptedIn s i) : exec i s = .next s.reject := by
  cases i with
  | nop => exact absurd trivial h
  | send n =>
    have hc : ¬ (s.st.betweenTransfers && s.lengthFits n) = true := by
      rw [Bool.and_eq_true, betweenTransfers_iff, lengthFits_iff]
      exact h
    simp only [exec, execSend, if_neg hc]
  | retry => simp only [exec, execRetry, if_neg fun hc => h ((atDecision_iff _).mp hc)]
  | abort => simp only [exec, execAbort, if_neg fun hc => h ((atDecision_iff _).mp hc)]
  | setle pol =>
    simp only [exec, execSetle]
    split
    · next p hp =>
      rw [if_neg]
      intro hb
      refine h ⟨(betweenTransfers_iff _).mp hb, ?_⟩
      rintro rfl
      simp [LinePolicy.ofBits] at hp
    · rfl
  | ack => simp only [exec, execAck, if_neg fun hc => h ((betweenTransfers_iff _).mp hc)]
  | wrbuf a v =>
    have hc : ¬ (s.st.betweenTransfers && s.indexFits a) = true := by
      rw [Bool.and_eq_true, betweenTransfers_iff, indexFits_iff]
      exact h
    simp only [exec, execWrbuf, if_neg hc]

/-- Every next state of an accepted command, by what the command did. -/
theorem exec_accepted {s t : State} {i : Instr} (h : acceptedIn s i) (ht : exec i s = .next t) :
    (i = .nop ∧ t = s) ∨
    (∃ n, i = .send n ∧ s.st.betweenTransfers = true ∧ s.lengthFits n = true ∧
      ((n = 0#16 ∧ t = { s.loadTransfer n with st := .done, res := ⟨.ok, 0#1, noFlags, 0#16⟩ }) ∨
       (n ≠ 0#16 ∧ t = { s.loadTransfer n with res := noResult }.beginByte 0#16))) ∨
    (i = .retry ∧ s.st = .faultWait ∧ t = s.resume) ∨
    (i = .abort ∧ s.st = .faultWait ∧ t = s.abandon) ∨
    (∃ pol p, i = .setle pol ∧ LinePolicy.ofBits pol = some p ∧ s.st.betweenTransfers = true ∧
      t = { s with policy := p }) ∨
    (i = .ack ∧ s.st.betweenTransfers = true ∧ t = { s with rej := false, st := .idle }) ∨
    (∃ a v, i = .wrbuf a v ∧ s.st.betweenTransfers = true ∧ s.indexFits a = true ∧ t = s.memWrite a v) := by
  cases i with
  | nop =>
    cases ht
    exact .inl ⟨rfl, rfl⟩
  | send n =>
    have hb := (betweenTransfers_iff _).mpr h.1
    have hl := (lengthFits_iff _ _).mpr h.2
    simp only [exec, execSend, hb, hl, Bool.and_self, if_true, Host.Outcome.next.injEq] at ht
    refine .inr (.inl ⟨n, rfl, hb, hl, ?_⟩)
    split at ht
    · exact .inl ⟨‹_›, ht.symm⟩
    · exact .inr ⟨‹_›, ht.symm⟩
  | retry =>
    have hs : s.st = .faultWait := h
    simp only [exec, execRetry, (atDecision_iff _).mpr hs, if_true, Host.Outcome.next.injEq] at ht
    exact .inr (.inr (.inl ⟨rfl, hs, ht.symm⟩))
  | abort =>
    have hs : s.st = .faultWait := h
    simp only [exec, execAbort, (atDecision_iff _).mpr hs, if_true, Host.Outcome.next.injEq] at ht
    exact .inr (.inr (.inr (.inl ⟨rfl, hs, ht.symm⟩)))
  | setle pol =>
    have hb := (betweenTransfers_iff _).mpr h.1
    have hp : ∀ pol : BitVec 2, pol ≠ 3#2 → (LinePolicy.ofBits pol).isSome = true := by decide
    obtain ⟨p, hp⟩ := Option.isSome_iff_exists.mp (hp pol h.2)
    simp only [exec, execSetle, hb, hp, if_true, Host.Outcome.next.injEq] at ht
    exact .inr (.inr (.inr (.inr (.inl ⟨pol, p, rfl, hp, hb, ht.symm⟩))))
  | ack =>
    have hb := (betweenTransfers_iff _).mpr (show s.st = .idle ∨ s.st = .done from h)
    simp only [exec, execAck, hb, if_true, Host.Outcome.next.injEq] at ht
    exact .inr (.inr (.inr (.inr (.inr (.inl ⟨rfl, hb, ht.symm⟩)))))
  | wrbuf a v =>
    have hb := (betweenTransfers_iff _).mpr h.1
    have hl := (indexFits_iff _ _).mpr h.2
    simp only [exec, execWrbuf, hb, hl, Bool.and_self, if_true, Host.Outcome.next.injEq] at ht
    exact .inr (.inr (.inr (.inr (.inr (.inr ⟨a, v, rfl, hb, hl, ht.symm⟩)))))

/-- Outside the inert states only NOP is accepted. -/
theorem inert_of_accepted {s : State} {i : Instr} (h : acceptedIn s i) (hn : i ≠ .nop) : s.st.inert = true := by
  rw [inert_iff]
  cases i <;> simp only [acceptedIn] at h
  · exact absurd rfl hn
  all_goals tauto

/-! ### The host port -/

/-- Every host access answers a next state: nothing, a rejection, or a command's own. -/
theorem hostAccess_cases (acc : HostAccess) (s : State) :
    hostAccess acc s = .next s ∨ hostAccess acc s = .next s.reject ∨
    ∃ w i, acc = .write 0x00#8 w ∧ decode w = .ok i ∧ hostAccess acc s = exec i s := by
  cases acc with
  | none => exact .inl rfl
  | read a => exact .inl rfl
  | write a w =>
    right
    simp only [hostAccess, hostWrite]
    split
    · next ha =>
      have h0 : a = 0x00#8 := by
        unfold HostReg.ofAddr at ha
        split at ha
        · assumption
        · repeat (split at ha; · cases ha)
          cases ha
      unfold command
      split
      · next i hi => exact .inr ⟨w, i, by rw [h0], hi, rfl⟩
      · exact .inl rfl
    · exact .inl rfl

theorem hostAccess_next (acc : HostAccess) (s : State) : ∃ h, hostAccess acc s = .next h := by
  obtain h | h | ⟨_, i, _, _, h⟩ := hostAccess_cases acc s
  · exact ⟨_, h⟩
  · exact ⟨_, h⟩
  · exact ⟨_, h.trans (exec_eq_commandState i s)⟩

theorem hostAccess_active {s : State} (acc : HostAccess) (hs : s.st.inert = false) :
    hostAccess acc s = .next s ∨ hostAccess acc s = .next s.reject := by
  obtain h | h | ⟨_, i, _, _, h⟩ := hostAccess_cases acc s
  · exact .inl h
  · exact .inr h
  · rw [h]
    exact exec_active i hs

/-- A write of a decodable word to CMD runs that command. -/
theorem hostAccess_command {w : Word} {i : Instr} (h : decode w = .ok i) (s : State) :
    hostAccess (.write 0x00#8 w) s = exec i s := by
  simp [hostAccess, hostWrite, HostReg.ofAddr, command, h]

/-- A written word that decodes is refused exactly if the table rejects its command. -/
theorem rejects_iff {s : State} {w : Word} {i : Instr} (ha : s.pins.access = .write 0x00#8 w) (hd : decode w = .ok i) :
    s.rejects ↔ s.pins.rst = false ∧ ¬ acceptedIn s i := by
  constructor
  · rintro ⟨h, a, w', h1, h2⟩
    refine ⟨h, ?_⟩
    rw [ha] at h1
    cases h1
    obtain h2 | ⟨r, h2⟩ | ⟨j, h2, h3⟩ := h2
    · exact absurd rfl h2
    · rw [hd] at h2
      cases h2
    · rw [hd] at h2
      cases h2
      exact h3
  · rintro ⟨h, h2⟩
    exact ⟨h, _, _, ha, .inr (.inr ⟨_, hd, h2⟩)⟩

/-- The host access of a cycle without reset: nothing or NOP, a rejection, or an accepted command. -/
theorem hostAccess_pins (s : State) (hr : s.pins.rst = false) :
    (hostAccess s.pins.access s = .next s ∧ ¬ s.rejects) ∨
    (hostAccess s.pins.access s = .next s.reject ∧ s.rejects) ∨
    ∃ i, i ≠ .nop ∧ s.issues i ∧ acceptedIn s i ∧ hostAccess s.pins.access s = exec i s ∧ ¬ s.rejects := by
  cases ha : s.pins.access with
  | none =>
    refine .inl ⟨rfl, ?_⟩
    rintro ⟨_, a, w, h, _⟩
    rw [ha] at h
    cases h
  | read a =>
    refine .inl ⟨rfl, ?_⟩
    rintro ⟨_, a, w, h, _⟩
    rw [ha] at h
    cases h
  | write a w =>
    by_cases h0 : a = 0x00#8
    · subst h0
      cases hd : decode w with
      | error r =>
        refine .inr (.inl ⟨?_, hr, _, _, ha, .inr (.inl ⟨r, hd⟩)⟩)
        simp [hostAccess, hostWrite, HostReg.ofAddr, command, hd]
      | ok i =>
        rw [hostAccess_command hd]
        by_cases hac : acceptedIn s i
        · have hn : ¬ s.rejects := fun h => ((rejects_iff ha hd).mp h).2 hac
          by_cases hi : i = .nop
          · subst hi
            exact .inl ⟨rfl, hn⟩
          · exact .inr (.inr ⟨i, hi, ⟨hr, _, ha, hd⟩, hac, rfl, hn⟩)
        · exact .inr (.inl ⟨exec_rejected hac, (rejects_iff ha hd).mpr ⟨hr, hac⟩⟩)
    · refine .inr (.inl ⟨?_, hr, _, _, ha, .inl h0⟩)
      have hc : HostReg.ofAddr a ≠ some .cmd := by
        unfold HostReg.ofAddr
        rw [if_neg h0]
        repeat' split
        all_goals simp
      simp [hostAccess, hostWrite, hc]

end Sys2Proof.Machine
end

