-- ==== Sys2Proof/Laws/Transport.lean ====
section
/-! SUPPORT. Laws/Transport.lean: the Transport's contract (20_memory.md rule R62, 70_reset_and_hazards.md rule R191): what an
answer can be, and what is owed after a cycle. -/
namespace Sys2Proof.Machine

@[simp] theorem Treq.allows_none (q : Treq) : q.allows .none = true := by cases q <;> rfl

/-- With nothing owed there is no answer. -/
theorem Treq.none_allows {r : Tresp} (h : Treq.none.allows r = true) : r = .none := by
  cases r <;> first | rfl | cases h

/-- An answer is of a kind the request it answers allows. -/
theorem owed_allows_tresp (s : State) : s.owed.allows s.tresp = true := by
  unfold State.tresp
  split
  · assumption
  · exact s.owed.allows_none

theorem owed_of_request {s : State} (h : s.treq ≠ .none) : s.owed = s.treq := if_neg h

theorem owed_of_no_request {s : State} (h : s.treq = .none) : s.owed = s.abandoned := if_pos h

/-- An offer to an outstanding request that allows it is the answer. -/
theorem tresp_of_offered {s : State} (h : s.owed.allows s.offered = true) : s.tresp = s.offered := if_pos h

theorem stillOwed_of_answer {s : State} (h : s.tresp ≠ .none) : s.stillOwed = .none := by
  simp [State.stillOwed, h]

theorem stillOwed_of_silence {s : State} (h : s.tresp = .none) : s.stillOwed = s.owed := by
  by_cases ho : s.owed = .none <;> simp [State.stillOwed, h, ho]

/-- With no request outstanding and none abandoned there is no answer. -/
theorem tresp_eq_none {s : State} (h1 : s.treq = .none) (h2 : s.abandoned = .none) : s.tresp = .none :=
  Treq.none_allows (by simpa [State.owed, h1, h2] using owed_allows_tresp s)

end Sys2Proof.Machine
end

