-- ==== Sys2Proof/Laws/Engine.lean ====
section
/-! SUPPORT. Laws/Engine.lean: what the engine can do in one cycle, state by state, and what it never writes. -/
namespace Sys2Proof.Machine

theorem engineStep_inert {s : State} (h : s.st.inert = true) : engineStep s = .next s := by
  obtain h | h | h := (inert_iff _).mp h <;> simp [engineStep, h]

/-- A timed state's cycle (41_handshake_engine.md rule R111). -/
theorem countDown_cases (s x : State) :
    (1#16 < s.cnt ∧ s.countDown x = { s with cnt := s.cnt - 1#16 }) ∨ (¬ 1#16 < s.cnt ∧ s.countDown x = x) := by
  unfold State.countDown
  split
  · exact .inl ⟨‹_›, rfl⟩
  · exact .inr ⟨‹_›, rfl⟩

theorem stepSetData_cases (s : State) :
    (∃ a v, s.treq = .write a v ∧ s.tresp = .ok ∧
      stepSetData s = { s with dataQ := some v, treq := .none }.enterSettle) ∨
    (∃ a v, s.treq = .write a v ∧ s.tresp = .busErr ∧ stepSetData s = s.finish .busError 0#1 noFlags s.idx) ∨
    stepSetData s = s := by
  unfold stepSetData
  split
  · next a v h1 h2 => exact .inl ⟨a, v, h1, h2, rfl⟩
  · next a v h1 h2 => exact .inr (.inl ⟨a, v, h1, h2, rfl⟩)
  · exact .inr (.inr rfl)

theorem pollReady_cases {s e : State} (h : pollReady s = .next e) :
    (s.idx + 1#16 = s.len ∧ e = { s with idx := s.idx + 1#16 }.finish .ok 0#1 noFlags s.len) ∨
    (s.idx + 1#16 ≠ s.len ∧ s.indexFits (s.idx + 1#16) = true ∧
      e = { s with idx := s.idx + 1#16 }.beginByte (s.idx + 1#16)) := by
  simp only [pollReady] at h
  split at h
  · cases h; exact .inl ⟨‹_›, rfl⟩
  · split at h
    · cases h; exact .inr ⟨‹_›, ‹_›, rfl⟩
    · cases h

theorem pollUndecided_cases (s : State) :
    (boundReached s.params (nextPolls s.polls) = true ∧
      pollUndecided s = { s with polls := nextPolls s.polls }.enterDecision timeoutReasons) ∨
    (boundReached s.params (nextPolls s.polls) = false ∧ pollUndecided s = s.enterPollWait (nextPolls s.polls)) := by
  simp only [pollUndecided]
  split
  · exact .inl ⟨‹_›, rfl⟩
  · next h => exact .inr ⟨by simpa using h, rfl⟩

/-- The state with the status of an answered poll recorded (41_handshake_engine.md rule R120). -/
def State.recorded (s : State) (b : Byte) : State :=
  { s with treq := .none, pstat := decodeStatus s.params b, pvalid := true }

theorem stepPoll_cases {s e : State} (h : stepPoll s = .next e) :
    (∃ a b f, s.treq = .read a ∧ s.tresp = .okByte b ∧
      classify s.params (decodeStatus s.params b) = .fault f ∧ e = (s.recorded b).enterDecision f.reasons) ∨
    (∃ a b, s.treq = .read a ∧ s.tresp = .okByte b ∧
      classify s.params (decodeStatus s.params b) = .ready ∧ pollReady (s.recorded b) = .next e) ∨
    (∃ a b, s.treq = .read a ∧ s.tresp = .okByte b ∧
      classify s.params (decodeStatus s.params b) = .undecided ∧ e = pollUndecided (s.recorded b)) ∨
    (∃ a, s.treq = .read a ∧ s.tresp = .busErr ∧ e = s.finish .busError 1#1 noFlags s.idx) ∨
    e = s := by
  unfold stepPoll at h
  split at h
  · next a b h1 h2 =>
    simp only [pollAnswered] at h
    split at h
    · next f hc => cases h; exact .inl ⟨a, b, f, h1, h2, hc, rfl⟩
    · next hc => exact .inr (.inl ⟨a, b, h1, h2, hc, h⟩)
    · next hc => cases h; exact .inr (.inr (.inl ⟨a, b, h1, h2, hc, rfl⟩))
  · next a h1 h2 => cases h; exact .inr (.inr (.inr (.inl ⟨a, h1, h2, rfl⟩)))
  · cases h; exact .inr (.inr (.inr (.inr rfl)))

theorem classify_fault_flags {p : Params} {ps : PrinterStatus} {f : DeviceFlags} (h : classify p ps = .fault f) :
    f ≠ noFlags ∧ f = faultFlags ps := by
  unfold classify at h
  split at h
  · next hf =>
    cases h
    refine ⟨fun he => ?_, rfl⟩
    obtain ⟨a, b, c, d, e⟩ := ps
    simp [faultFlags, noFlags] at he
    simp [isFault, he] at hf
  · split at h <;> cases h

/-- The elements the engine never writes: "The host alone writes `rej`, `policy` and `SEQ`" (R110), nor the parameters, the
length (10_state.md rule R24), the inputs or what the Transport owes. -/
structure EngineKeeps (s e : State) : Prop where
  rej     : e.rej = s.rej
  policy  : e.policy = s.policy
  seq     : e.seq = s.seq
  params  : e.params = s.params
  len     : e.len = s.len
  hostIn  : e.hostIn = s.hostIn
  trespIn : e.trespIn = s.trespIn
  draws   : e.draws = s.draws
  seqOld  : e.seqOld = s.seqOld
  seqKept : e.seqKept = s.seqKept
  abandoned : e.abandoned = s.abandoned

theorem EngineKeeps.refl (s : State) : EngineKeeps s s := ⟨rfl, rfl, rfl, rfl, rfl, rfl, rfl, rfl, rfl, rfl, rfl⟩

theorem countDown_keeps {s x : State} (h : EngineKeeps s x) : EngineKeeps s (s.countDown x) := by
  obtain ⟨_, e⟩ | ⟨_, e⟩ := countDown_cases s x <;> rw [e]
  · exact ⟨rfl, rfl, rfl, rfl, rfl, rfl, rfl, rfl, rfl, rfl, rfl⟩
  · exact h

theorem engineStep_keeps {s e : State} (h : engineStep s = .next e) : EngineKeeps s e := by
  have all : ∀ {x : State}, x.rej = s.rej → x.policy = s.policy → x.seq = s.seq → x.params = s.params → x.len = s.len →
      x.hostIn = s.hostIn → x.trespIn = s.trespIn → x.draws = s.draws → x.seqOld = s.seqOld → x.seqKept = s.seqKept →
      x.abandoned = s.abandoned → EngineKeeps s x :=
    fun a b c d e f g i j k l => ⟨a, b, c, d, e, f, g, i, j, k, l⟩
  unfold engineStep at h
  split at h
  · cases h; exact .refl s
  · cases h
    obtain ⟨a, v, _, _, e⟩ | ⟨a, v, _, _, e⟩ | e := stepSetData_cases s <;> rw [e]
    · exact all rfl rfl rfl rfl rfl rfl rfl rfl rfl rfl rfl
    · exact all rfl rfl rfl rfl rfl rfl rfl rfl rfl rfl rfl
    · exact .refl s
  · cases h; exact countDown_keeps (all rfl rfl rfl rfl rfl rfl rfl rfl rfl rfl rfl)
  · cases h; exact countDown_keeps (all rfl rfl rfl rfl rfl rfl rfl rfl rfl rfl rfl)
  · cases h; exact all rfl rfl rfl rfl rfl rfl rfl rfl rfl rfl rfl
  · cases h; exact countDown_keeps (all rfl rfl rfl rfl rfl rfl rfl rfl rfl rfl rfl)
  · obtain ⟨a, b, f, _, _, _, rfl⟩ | ⟨a, b, _, _, _, hr⟩ | ⟨a, b, _, _, _, rfl⟩ | ⟨a, _, _, rfl⟩ | rfl := stepPoll_cases h
    · exact all rfl rfl rfl rfl rfl rfl rfl rfl rfl rfl rfl
    · obtain ⟨_, rfl⟩ | ⟨_, _, rfl⟩ := pollReady_cases hr <;> exact all rfl rfl rfl rfl rfl rfl rfl rfl rfl rfl rfl
    · obtain ⟨_, e⟩ | ⟨_, e⟩ := pollUndecided_cases (s.recorded b) <;> rw [e] <;>
        exact all rfl rfl rfl rfl rfl rfl rfl rfl rfl rfl rfl
    · exact all rfl rfl rfl rfl rfl rfl rfl rfl rfl rfl rfl
    · exact .refl e
  · cases h; exact .refl s
  · cases h; exact .refl s

/-- Everything the engine can do in one cycle of a state where it moves. -/
inductive EngineCase (s e : State) : Prop
  | writeOk (a : Nat) (v : Byte) (hs : s.st = .setData) (hq : s.treq = .write a v) (ht : s.tresp = .ok)
      (he : e = { s with dataQ := some v, treq := .none }.enterSettle)
  | writeFailed (a : Nat) (v : Byte) (hs : s.st = .setData) (hq : s.treq = .write a v) (ht : s.tresp = .busErr)
      (he : e = s.finish .busError 0#1 noFlags s.idx)
  | waiting (hs : s.st = .setData ∨ s.st = .poll) (he : e = s)
  | counting (hs : s.st = .settle ∨ s.st = .strobe ∨ s.st = .pollWait) (hc : 1#16 < s.cnt)
      (he : e = { s with cnt := s.cnt - 1#16 })
  | strobeOn (hs : s.st = .settle) (hc : ¬ 1#16 < s.cnt) (he : e = s.enterStrobe)
  | strobeOff (hs : s.st = .strobe) (hc : ¬ 1#16 < s.cnt) (he : e = s.enterRelease)
  | released (hs : s.st = .release) (he : e = s.enterPollWait 0#16)
  | pollIssued (hs : s.st = .pollWait) (hc : ¬ 1#16 < s.cnt) (he : e = s.enterPoll)
  | pollFault (a : Nat) (b : Byte) (f : DeviceFlags) (hs : s.st = .poll) (hq : s.treq = .read a) (ht : s.tresp = .okByte b)
      (hc : classify s.params (decodeStatus s.params b) = .fault f) (he : e = (s.recorded b).enterDecision f.reasons)
  | pollLast (a : Nat) (b : Byte) (hs : s.st = .poll) (hq : s.treq = .read a) (ht : s.tresp = .okByte b)
      (hc : classify s.params (decodeStatus s.params b) = .ready) (hl : s.idx + 1#16 = s.len)
      (he : e = { s.recorded b with idx := s.idx + 1#16 }.finish .ok 0#1 noFlags s.len)
  | pollNext (a : Nat) (b : Byte) (hs : s.st = .poll) (hq : s.treq = .read a) (ht : s.tresp = .okByte b)
      (hc : classify s.params (decodeStatus s.params b) = .ready) (hl : s.idx + 1#16 ≠ s.len)
      (hf : s.indexFits (s.idx + 1#16) = true)
      (he : e = { s.recorded b with idx := s.idx + 1#16 }.beginByte (s.idx + 1#16))
  | pollTimeout (a : Nat) (b : Byte) (hs : s.st = .poll) (hq : s.treq = .read a) (ht : s.tresp = .okByte b)
      (hc : classify s.params (decodeStatus s.params b) = .undecided)
      (hb : boundReached s.params (nextPolls s.polls) = true)
      (he : e = { s.recorded b with polls := nextPolls s.polls }.enterDecision timeoutReasons)
  | pollAgain (a : Nat) (b : Byte) (hs : s.st = .poll) (hq : s.treq = .read a) (ht : s.tresp = .okByte b)
      (hc : classify s.params (decodeStatus s.params b) = .undecided)
      (hb : boundReached s.params (nextPolls s.polls) = false)
      (he : e = (s.recorded b).enterPollWait (nextPolls s.polls))
  | readFailed (a : Nat) (hs : s.st = .poll) (hq : s.treq = .read a) (ht : s.tresp = .busErr)
      (he : e = s.finish .busError 1#1 noFlags s.idx)

theorem engineStep_cases {s e : State} (hi : s.st.inert = false) (h : engineStep s = .next e) : EngineCase s e := by
  unfold engineStep at h
  split at h
  · next hs => rw [hs] at hi; cases hi
  · next hs =>
    cases h
    obtain ⟨a, v, hq, ht, he⟩ | ⟨a, v, hq, ht, he⟩ | he := stepSetData_cases s <;> rw [he]
    · exact .writeOk a v hs hq ht rfl
    · exact .writeFailed a v hs hq ht rfl
    · exact .waiting (.inl hs) rfl
  · next hs =>
    cases h
    obtain ⟨hc, he⟩ | ⟨hc, he⟩ := countDown_cases s s.enterStrobe <;> rw [stepSettle, he]
    · exact .counting (.inl hs) hc rfl
    · exact .strobeOn hs hc rfl
  · next hs =>
    cases h
    obtain ⟨hc, he⟩ | ⟨hc, he⟩ := countDown_cases s s.enterRelease <;> rw [stepStrobe, he]
    · exact .counting (.inr (.inl hs)) hc rfl
    · exact .strobeOff hs hc rfl
  · next hs =>
    cases h
    exact .released hs rfl
  · next hs =>
    cases h
    obtain ⟨hc, he⟩ | ⟨hc, he⟩ := countDown_cases s s.enterPoll <;> rw [stepPollWait, he]
    · exact .counting (.inr (.inr hs)) hc rfl
    · exact .pollIssued hs hc rfl
  · next hs =>
    obtain ⟨a, b, f, hq, ht, hc, rfl⟩ | ⟨a, b, hq, ht, hc, hp⟩ | ⟨a, b, hq, ht, hc, rfl⟩ | ⟨a, hq, ht, rfl⟩ | rfl :=
      stepPoll_cases h
    · exact .pollFault a b f hs hq ht hc rfl
    · obtain ⟨hl, rfl⟩ | ⟨hl, hf, rfl⟩ := pollReady_cases hp
      · exact .pollLast a b hs hq ht hc hl rfl
      · exact .pollNext a b hs hq ht hc hl hf rfl
    · obtain ⟨hb, he⟩ | ⟨hb, he⟩ := pollUndecided_cases (s.recorded b) <;> rw [he]
      · exact .pollTimeout a b hs hq ht hc hb rfl
      · exact .pollAgain a b hs hq ht hc hb rfl
    · exact .readFailed a hs hq ht rfl
    · exact .waiting (.inr hs) rfl
  · next hs => rw [hs] at hi; cases hi
  · next hs => rw [hs] at hi; cases hi

end Sys2Proof.Machine
end

