-- ==== Sys2Proof/Laws/PerInstr.lean ====
section
/-! SUPPORT. Laws/PerInstr.lean: the encoding of every command carries its own row's fixed bits (30_encoding.md rule R76). -/
namespace Sys2Proof.Laws.TableRow

/-- The fixed bits of the row stand in the command's word, and the row is in the table. -/
def Statement (i : Instr) : Prop := encode i &&& i.row.mask = i.row.pattern ∧ i.row ∈ opcodeMap

theorem append_and_ones_zeros {n m : Nat} (a : BitVec n) (b : BitVec m) :
    (a ++ b) &&& (BitVec.allOnes n ++ 0#m) = a ++ 0#m := by
  simp [BitVec.and_append]

theorem nop : Statement .nop := ⟨by decide, by simp [opcodeMap]⟩

theorem send (n : Half) : Statement (.send n) :=
  ⟨append_and_ones_zeros (0x1000#16) n, by simp [opcodeMap, Instr.row]⟩

theorem retry : Statement .retry := ⟨by decide, by simp [opcodeMap]⟩

theorem abort : Statement .abort := ⟨by decide, by simp [opcodeMap]⟩

theorem setle (pol : BitVec 2) : Statement (.setle pol) :=
  ⟨append_and_ones_zeros (0x10000000#30) pol, by simp [opcodeMap, Instr.row]⟩

theorem ack : Statement .ack := ⟨by decide, by simp [opcodeMap]⟩

theorem wrbuf (a : Half) (v : Byte) : Statement (.wrbuf a v) := by
  refine ⟨?_, by simp [opcodeMap, Instr.row]⟩
  have h : encode (.wrbuf a v) = (0x60#8 ++ (a ++ v) : BitVec (8 + 24)) := by
    exact BitVec.append_assoc (x₁ := 0x60#8) (x₂ := a) (x₃ := v)
  rw [h]
  exact append_and_ones_zeros (0x60#8) (a ++ v)

end Sys2Proof.Laws.TableRow
end

