-- ==== Sys2Proof/Laws/Registers.lean ====
section
/-! SUPPORT. Laws/Registers.lean: the registers as numbers, from which their fields are read (10_state.md rules R37 to R41). -/
namespace Sys2Proof.Machine

theorem statusWord_toNat (s : State) :
    s.statusWord.toNat = s.idx.toNat * 65536 + (flag s.autofeed).toNat * 512 + (flag s.strobeQ).toNat * 256 +
      s.policy.code.toNat * 64 + (flag s.rej).toNat * 32 + (flag s.attn).toNat * 16 + s.st.code.toNat := by
  unfold State.statusWord
  refine (append_toNat _ _).trans ?_
  simp only [append_toNat, BitVec.toNat_ofNat]
  omega

theorem resultWord_toNat (s : State) :
    s.resultWord.toNat = s.res.ridx.toNat * 65536 + (flag s.res.flags.err).toNat * 64 +
      (flag s.res.flags.desel).toNat * 32 + (flag s.res.flags.pe).toNat * 16 + s.res.phase.toNat * 8 +
      s.res.code.code.toNat := by
  unfold State.resultWord
  refine (append_toNat _ _).trans ?_
  simp only [append_toNat, BitVec.toNat_ofNat]
  omega

theorem pstatWord_toNat (s : State) :
    s.pstatWord.toNat = (flag s.pvalid).toNat * 256 + (flag s.pstat.error).toNat * 16 + (flag s.pstat.select).toNat * 8 +
      (flag s.pstat.paperEnd).toNat * 4 + (flag s.pstat.busy).toNat * 2 + (flag s.pstat.ack).toNat := by
  unfold State.pstatWord
  refine (append_toNat _ _).trans ?_
  simp only [append_toNat, BitVec.toNat_ofNat]
  omega

theorem faultWord_toNat (s : State) :
    s.faultWord.toNat = (flag s.fault.timeout).toNat * 8 + (flag s.fault.err).toNat * 4 + (flag s.fault.desel).toNat * 2 +
      (flag s.fault.pe).toNat := by
  unfold State.faultWord
  refine (append_toNat _ _).trans ?_
  simp only [append_toNat, BitVec.toNat_ofNat]
  omega

theorem lenWord_toNat (s : State) : s.lenWord.toNat = s.len.toNat :=
  (append_toNat (0#16) s.len).trans (by simp)

end Sys2Proof.Machine
end

