-- ==== Sys2Proof/Laws/Step.lean ====
section
/-! SUPPORT. Laws/Step.lean: everything one step can do, said once, and runs of steps. -/
namespace Sys2Proof.Machine

theorem step_reset {s : State} (h : s.pins.rst = true) : step s = .next (s.tick s.resetElements) := by
  simp [step, clockCycle, h]

/-- In an inert state a cycle without reset is the host access alone. -/
theorem step_inert {s h : State} (hr : s.pins.rst = false) (hi : s.st.inert = true)
    (hh : hostAccess s.pins.access s = .next h) : step s = .next (s.tick h) := by
  simp [step, clockCycle, hr, runCycle, engineStep_inert hi, hh, State.join, hi]

theorem engineStep_fault {s : State} (hi : s.st.inert = true) (r : Fault) : engineStep s ≠ .fault r := by
  simp [engineStep_inert hi]

/-- Where the engine moves, a cycle without reset is the engine's step, and `rej` set if the host's access is rejected. -/
theorem step_active {s e : State} (hr : s.pins.rst = false) (hi : s.st.inert = false) (he : engineStep s = .next e) :
    ∃ r : Bool, (hostAccess s.pins.access s = .next s ∧ r = s.rej ∨ hostAccess s.pins.access s = .next s.reject ∧ r = true) ∧
      step s = .next (s.tick { e with rej := r }) := by
  have k := engineStep_keeps he
  obtain h | h := hostAccess_active s.pins.access hi
  · refine ⟨s.rej, .inl ⟨h, rfl⟩, ?_⟩
    simp [step, clockCycle, hr, runCycle, he, h, State.join, hi, State.tick, k.policy, k.seq, k.seqOld]
  · refine ⟨true, .inr ⟨h, rfl⟩, ?_⟩
    simp [step, clockCycle, hr, runCycle, he, h, State.join, hi, State.tick, State.reject, k.policy, k.seq, k.seqOld]

/-- Every next state of a step, by what happened in its cycle. -/
theorem step_cases {s t : State} (h : step s = .next t) :
    (s.pins.rst = true ∧ t = s.tick s.resetElements) ∨
    (s.pins.rst = false ∧ s.st.inert = true ∧ ∃ x, hostAccess s.pins.access s = .next x ∧ t = s.tick x) ∨
    (s.pins.rst = false ∧ s.st.inert = false ∧ ∃ e r, engineStep s = .next e ∧
      (hostAccess s.pins.access s = .next s ∧ r = s.rej ∨ hostAccess s.pins.access s = .next s.reject ∧ r = true) ∧
      t = s.tick { e with rej := r }) := by
  cases hr : s.pins.rst with
  | true =>
    rw [step_reset hr] at h
    cases h
    exact .inl ⟨rfl, rfl⟩
  | false =>
    right
    cases hi : s.st.inert with
    | true =>
      obtain ⟨x, hx⟩ := hostAccess_next s.pins.access s
      rw [step_inert hr hi hx] at h
      cases h
      exact .inl ⟨rfl, rfl, x, hx, rfl⟩
    | false =>
      right
      cases he : engineStep s with
      | next e =>
        obtain ⟨r, ha, hs⟩ := step_active hr hi he
        rw [hs] at h
        cases h
        exact ⟨rfl, rfl, e, r, rfl, ha, rfl⟩
      | fault r => simp [step, clockCycle, hr, runCycle, he] at h
      | refused r => simp [step, clockCycle, hr, runCycle, he] at h

/-- Everything a step can do: the reset, nothing, a rejection, an accepted command, or the engine's step with `rej` set if
the host's access is rejected. -/
inductive StepCase (s t : State) : Prop
  | reset (hr : s.pins.rst = true) (ht : t = s.tick s.resetElements)
  | quiet (hr : s.pins.rst = false) (hi : s.st.inert = true) (hj : ¬ s.rejects) (ht : t = s.tick s)
  | rejected (hr : s.pins.rst = false) (hi : s.st.inert = true) (hj : s.rejects) (ht : t = s.tick s.reject)
  | command (i : Instr) (x : State) (hr : s.pins.rst = false) (hi : s.st.inert = true) (hn : i ≠ .nop) (hw : s.issues i)
      (ha : acceptedIn s i) (hx : exec i s = .next x) (hj : ¬ s.rejects) (ht : t = s.tick x)
  | engine (e : State) (r : Bool) (hr : s.pins.rst = false) (hi : s.st.inert = false) (he : engineStep s = .next e)
      (hj : (r = s.rej ∧ ¬ s.rejects) ∨ (r = true ∧ s.rejects)) (ht : t = s.tick { e with rej := r })

theorem step_what {s t : State} (h : step s = .next t) : StepCase s t := by
  obtain ⟨hr, rfl⟩ | ⟨hr, hi, x, hx, rfl⟩ | ⟨hr, hi, e, r, he, hh, rfl⟩ := step_cases h
  · exact .reset hr rfl
  · obtain ⟨h1, hj⟩ | ⟨h1, hj⟩ | ⟨i, hn, hw, ha, h1, hj⟩ := hostAccess_pins s hr <;> rw [h1] at hx
    · cases hx
      exact .quiet hr hi hj rfl
    · cases hx
      exact .rejected hr hi hj rfl
    · exact .command i x hr hi hn hw ha hx hj rfl
  · refine .engine e r hr hi he ?_ rfl
    obtain ⟨h1, hj⟩ | ⟨h1, hj⟩ | ⟨i, hn, hw, ha, h1, hj⟩ := hostAccess_pins s hr
    · rw [h1] at hh
      obtain ⟨_, hq⟩ | ⟨hq, rfl⟩ := hh
      · exact .inl ⟨hq, hj⟩
      · have := congrArg State.rej (Host.Outcome.next.inj hq)
        exact .inl ⟨by simpa using this.symm, hj⟩
    · rw [h1] at hh
      obtain ⟨hq, rfl⟩ | ⟨_, hq⟩ := hh
      · have := congrArg State.rej (Host.Outcome.next.inj hq)
        exact .inr ⟨by simpa using this.symm, hj⟩
      · exact .inr ⟨hq, hj⟩
    · rw [inert_of_accepted ha hn] at hi
      cases hi

/-- A step never refuses. -/
theorem step_not_refused (s : State) (r : Refusal) : step s ≠ .refused r := by
  intro h
  cases hr : s.pins.rst with
  | true => simp [step_reset hr] at h
  | false =>
    obtain ⟨x, hx⟩ := hostAccess_next s.pins.access s
    cases he : engineStep s with
    | next e => simp [step, clockCycle, hr, runCycle, he, hx] at h
    | fault q => simp [step, clockCycle, hr, runCycle, he] at h
    | refused q =>
      unfold engineStep at he
      split at he <;> try cases he
      unfold stepPoll at he
      split at he
      · simp only [pollAnswered] at he
        split at he
        · cases he
        · simp only [pollReady] at he
          split at he
          · cases he
          · split at he <;> cases he
        · cases he
      · cases he
      · cases he

/-! ### Runs -/

theorem run_succ {s t : State} (h : step s = .next t) (n : Nat) :
    Sys2Proof.core.run (n + 1) s = Sys2Proof.core.run n t := by
  have h' : Sys2Proof.core.step s = .next t := h
  simp only [Host.Core.run, h']

theorem run_add {s t : State} (m n : Nat) (h : Sys2Proof.core.run m s = .next t) :
    Sys2Proof.core.run (m + n) s = Sys2Proof.core.run n t := by
  induction m generalizing s with
  | zero =>
    cases h
    simp
  | succ m ih =>
    rw [show m + 1 + n = m + n + 1 by omega]
    simp only [Host.Core.run] at h ⊢
    split at h
    · exact ih h
    · cases h
    · cases h

theorem noResetFor_pins {s : State} {n : Nat} (h : s.noResetFor (n + 1)) : s.pins.rst = false := by
  unfold State.pins
  cases e : s.hostIn with
  | nil => rfl
  | cons p l => exact h p (by simp [e])

theorem noResetFor_tail {s t : State} {n : Nat} (h : s.noResetFor (n + 1)) (ht : t.hostIn = s.hostIn.tail) :
    t.noResetFor n := by
  intro p hp
  rw [ht] at hp
  apply h p
  cases e : s.hostIn with
  | nil => simp [e] at hp
  | cons q l =>
    simp only [e, List.tail_cons, List.take_succ_cons, List.mem_cons] at hp ⊢
    exact .inr hp

end Sys2Proof.Machine
end

