-- ==== Sys2Proof/Laws/Runs.lean ====
section
/-! SUPPORT. Laws/Runs.lean: runs without reset: a cycle of the engine, a timed state, a request that waits for its answer. -/
namespace Sys2Proof.Machine

theorem noResetFor_mono {s : State} {m n : Nat} (h : s.noResetFor n) (hm : m ≤ n) : s.noResetFor m :=
  fun p hp => h p (List.take_subset_take_left _ hm hp)

/-- After `m` cycles there is no reset in the ones left. -/
theorem noResetFor_drop {s t : State} {m n : Nat} (h : s.noResetFor (m + n)) (ht : t.hostIn = s.hostIn.drop m) :
    t.noResetFor n := by
  intro p hp
  rw [ht, List.take_drop] at hp
  exact h p (List.mem_of_mem_drop hp)

/-- `t` is `s` after `k` cycles, but for the engine's elements. -/
structure After (k : Nat) (s t : State) : Prop where
  params  : t.params = s.params
  len     : t.len = s.len
  hostIn  : t.hostIn = s.hostIn.drop k
  trespIn : t.trespIn = s.trespIn.drop k

theorem After.refl (s : State) : After 0 s s := ⟨rfl, rfl, rfl, rfl⟩

theorem After.trans {m n : Nat} {s t u : State} (h : After m s t) (h' : After n t u) : After (m + n) s u :=
  ⟨h'.params.trans h.params, h'.len.trans h.len, by rw [h'.hostIn, h.hostIn, List.drop_drop],
    by rw [h'.trespIn, h.trespIn, List.drop_drop]⟩

theorem After.noReset {m n : Nat} {s t : State} (h : After m s t) (hn : s.noResetFor (m + n)) : t.noResetFor n :=
  noResetFor_drop hn h.hostIn

/-- A cycle of the engine in a run: its step, but for `rej` and the inputs. -/
theorem run_engine {s e : State} (hn : s.noResetFor 1) (hi : s.st.inert = false) (he : engineStep s = .next e) :
    ∃ t, Sys2Proof.core.run 1 s = .next t ∧ After 1 s t ∧ t.st = e.st ∧ t.idx = e.idx ∧ t.cnt = e.cnt ∧ t.polls = e.polls ∧
      t.strobeQ = e.strobeQ ∧ t.treq = e.treq ∧ t.res = e.res ∧ t.pstat = e.pstat := by
  obtain ⟨r, _, h⟩ := step_active (noResetFor_pins hn) hi he
  have k := engineStep_keeps he
  exact ⟨_, run_succ h 0, ⟨k.params, k.len, by simp, by simp⟩, rfl, rfl, rfl, rfl, rfl, rfl, rfl, rfl⟩

/-- While `cnt` is above `k`, a timed state is `k` cycles later still the same, with `cnt` lower by `k`. -/
theorem run_counting {s : State} (hs : s.st = .settle ∨ s.st = .strobe ∨ s.st = .pollWait) (k : Nat) (hk : k < s.cnt.toNat)
    (hn : s.noResetFor k) :
    ∃ t, Sys2Proof.core.run k s = .next t ∧ After k s t ∧ t.st = s.st ∧ t.idx = s.idx ∧ t.cnt.toNat = s.cnt.toNat - k ∧
      t.polls = s.polls ∧ t.strobeQ = s.strobeQ := by
  induction k with
  | zero => exact ⟨s, rfl, .refl s, rfl, rfl, rfl, rfl, rfl⟩
  | succ k ih =>
    obtain ⟨t, h1, ha, h2, h3, h4, h5, h6⟩ := ih (by omega) (noResetFor_mono hn (by omega))
    have hc : 1#16 < t.cnt := by
      rw [BitVec.lt_def]
      show 1 < t.cnt.toNat
      omega
    have hs' : t.st = .settle ∨ t.st = .strobe ∨ t.st = .pollWait := by rwa [h2]
    have he : engineStep t = .next { t with cnt := t.cnt - 1#16 } := by
      rcases hs' with h | h | h <;> simp [engineStep, h, stepSettle, stepStrobe, stepPollWait, State.countDown, hc]
    obtain ⟨u, g1, ga, g2, g3, g4, g5, g6, _⟩ := run_engine (ha.noReset hn)
      (by rcases hs' with h | h | h <;> rw [h] <;> rfl) he
    refine ⟨u, (run_add k 1 h1).trans g1, ha.trans ga, g2.trans h2, g3.trans h3, ?_, g5.trans h5, g6.trans h6⟩
    have h7 : (t.cnt - 1#16).toNat = t.cnt.toNat - 1 := by
      rw [BitVec.toNat_sub_of_le (by rw [BitVec.le_def]; show 1 ≤ t.cnt.toNat; omega)]
      rfl
    rw [g4]
    show (t.cnt - 1#16).toNat = _
    omega

/-- A timed state with `cnt = n` makes its exit action in the last of `n` cycles. -/
theorem run_timed {s : State} {x : State → State} {n : Nat}
    (hs : s.st = .settle ∧ x = State.enterStrobe ∨ s.st = .strobe ∧ x = State.enterRelease ∨
      s.st = .pollWait ∧ x = State.enterPoll)
    (hc : s.cnt.toNat = n) (hp : 0 < n) (hn : s.noResetFor n) :
    ∃ u t, Sys2Proof.core.run n s = .next t ∧ After n s t ∧ u.params = s.params ∧ u.idx = s.idx ∧ u.polls = s.polls ∧
      t.st = (x u).st ∧ t.idx = (x u).idx ∧ t.cnt = (x u).cnt ∧ t.polls = (x u).polls ∧ t.strobeQ = (x u).strobeQ ∧
      t.treq = (x u).treq := by
  obtain ⟨k, rfl⟩ : ∃ k, n = k + 1 := ⟨n - 1, by omega⟩
  obtain ⟨u, h1, ha, h2, h3, h4, h5, h6⟩ := run_counting (by rcases hs with h | h | h <;> simp [h.1]) k (by omega)
    (noResetFor_mono hn (by omega))
  have hc1 : ¬ 1#16 < u.cnt := by
    rw [BitVec.lt_def]
    show ¬ 1 < u.cnt.toNat
    omega
  have he : engineStep u = .next (x u) := by
    rcases hs with ⟨h, rfl⟩ | ⟨h, rfl⟩ | ⟨h, rfl⟩ <;>
      simp [engineStep, h2, h, stepSettle, stepStrobe, stepPollWait, State.countDown, hc1]
  obtain ⟨t, g1, ga, g2, g3, g4, g5, g6, g7, _⟩ := run_engine (ha.noReset hn)
    (by rw [h2]; rcases hs with h | h | h <;> rw [h.1] <;> rfl) he
  exact ⟨u, t, (run_add k 1 h1).trans g1, ha.trans ga, ha.params, h3, h5, g2, g3, g4, g5, g6, g7⟩

/-- A request that the Transport offers no answer for `k` cycles is held, and the engine waits. -/
theorem run_waiting {s : State} (hs : s.st = .setData ∨ s.st = .poll) (k : Nat) (l : List Tresp)
    (hl : s.trespIn = List.replicate k .none ++ l) (hn : s.noResetFor k) :
    ∃ t, Sys2Proof.core.run k s = .next t ∧ After k s t ∧ t.st = s.st ∧ t.idx = s.idx ∧ t.polls = s.polls ∧
      t.strobeQ = s.strobeQ ∧ t.treq = s.treq ∧ t.trespIn = l := by
  induction k generalizing l with
  | zero => exact ⟨s, rfl, .refl s, rfl, rfl, rfl, rfl, rfl, by simpa using hl⟩
  | succ k ih =>
    obtain ⟨t, h1, ha, h2, h3, h4, h5, h6, h7⟩ := ih (.none :: l) (by rw [hl]; simp [List.replicate_succ'])
      (noResetFor_mono hn (by omega))
    have ht : t.tresp = .none := by simp [State.tresp, State.offered, h7]
    have he : engineStep t = .next t := by
      rcases hs with h | h <;> simp only [engineStep, h2, h, stepSetData, stepPoll, ht] <;> cases t.treq <;> rfl
    obtain ⟨u, g1, ga, g2, g3, _, g4, g5, g6, _⟩ := run_engine (ha.noReset hn)
      (by rw [h2]; rcases hs with h | h <;> rw [h] <;> rfl) he
    exact ⟨u, (run_add k 1 h1).trans g1, ha.trans ga, g2.trans h2, g3.trans h3, g4.trans h4, g5.trans h5, g6.trans h6,
      by rw [ga.trespIn, h7]; rfl⟩

/-- An offered answer of the kind the outstanding request allows is the answer. -/
theorem tresp_of_head {s : State} {r : Tresp} {l : List Tresp} (hq : s.treq ≠ .none) (hl : s.trespIn = r :: l)
    (ha : s.treq.allows r = true) : s.tresp = r := by
  have ho : s.offered = r := by simp [State.offered, hl]
  rw [tresp_of_offered (by rw [owed_of_request hq, ho]; exact ha), ho]

end Sys2Proof.Machine
end

