-- ==== Sys2Proof/Laws/Timing.lean ====
section
/-! SUPPORT. Laws/Timing.lean: the time values of 70_reset_and_hazards.md rule R205, for every positive real frequency. -/
namespace Sys2Proof.Machine

/-- `n` cycles last `n / F_CLK` seconds, and nothing else. -/
theorem lastsSeconds_iff (n : Nat) (f : Frequency) (t : ℝ) : lastsSeconds n f t ↔ t = n / f.hz := by
  rw [lastsSeconds, eq_div_iff f.pos.ne']

/-- `P / F_CLK` (R205); the settle and the poll interval are the same by definition. -/
theorem strobeLasts_iff (p : Params) (f : Frequency) (t : ℝ) : strobeLasts p f t ↔ t = p.strobeCycles.toNat / f.hz :=
  lastsSeconds_iff _ f t

theorem settleLasts_iff (p : Params) (f : Frequency) (t : ℝ) : settleLasts p f t ↔ t = p.settleCycles.toNat / f.hz :=
  lastsSeconds_iff _ f t

theorem pollLasts_iff (p : Params) (f : Frequency) (t : ℝ) : pollLasts p f t ↔ t = p.pollCycles.toNat / f.hz :=
  lastsSeconds_iff _ f t

end Sys2Proof.Machine
end

