-- ==== Sys2Proof/Tests/Slice0.lean ====
section
/-! SUPPORT. Tests/Slice0.lean: small tests whose expected values are those of 95_test_vectors.md (the vector is named at each),
and a witness for the hypotheses of each statement of Certificates/Slice0/Obligations.lean. -/
namespace Sys2Proof.Tests
open Sys2Proof Sys2Proof.Machine

/-! ## Set-up: the default parameters of 95_test_vectors.md -/

def exampleDecode (b : Byte) : PrinterStatus :=
  ⟨b.getLsbD 0, b.getLsbD 1, b.getLsbD 2, b.getLsbD 3, b.getLsbD 4⟩

def params : Params where
  settleCycles       := ⟨2#16, by decide⟩
  strobeCycles       := ⟨3#16, by decide⟩
  pollCycles         := ⟨1#16, by decide⟩
  maxPolls           := 0#16
  ackDistinguishable := true
  seqMax             := ⟨16#16, by decide⟩
  dataAddr           := 0x20
  statusAddr         := 0x21
  statusTable        := statusTableOf exampleDecode
  linePolarity       := ⟨.activeLow, .activeHigh, .activeLow⟩

def idle : State := { State.reset with params := params }

/-- A transfer of `n` bytes at byte `k`, in state `st`. -/
def at_ (st : EngineState) (k n : Half) : State :=
  { idle with st := st, idx := k, len := n, dataQ := some (if k = 1#16 then 0x40#8 else 0x41#8), seq := [(0, 0x41#8), (1, 0x40#8)] }

def polling (k n : Half) (answer : Tresp) : State := { at_ .poll k n with treq := .read 0x21, trespIn := [answer] }

def writing (answer : Tresp) : State :=
  { at_ .setData 0 1 with treq := .write 0x20 0x41#8, dataQ := none, trespIn := [answer] }

/-- Waiting for the host at byte 1 of 3, with a paper-end fault. -/
def deciding : State := { at_ .faultWait 1 3 with fault := ⟨true, false, false, false⟩ }

def done2 : State := { at_ .done 2 2 with res := ⟨.ok, 0#1, noFlags, 2#16⟩ }

def bounded (n : Half) (s : State) : State := { s with params := { params with maxPolls := n } }

def next? {α : Type} (o : Host.Outcome State Fault Refusal) (f : State → α) : Option α :=
  match o with
  | .next t    => some (f t)
  | .fault _   => none
  | .refused _ => none

/-! ## WellFormed and the decoder (95 section 2.2) -/

theorem test_setle_3_is_ill_formed : (Instr.setle 3#2).wellFormed = false := by decide
theorem test_setle_2_is_well_formed : (Instr.setle 2#2).wellFormed = true := by decide

theorem test_decode_nop : decode 0b0000_0000000000000000000000000000#32 = .ok .nop := by decide
theorem test_decode_send : decode 0b0001_000000000000_0000000000000011#32 = .ok (.send 3) := by decide
theorem test_decode_send_top : decode 0x1000FFFF#32 = .ok (.send 65535) := by decide
theorem test_decode_retry : decode 0b0010_0000000000000000000000000000#32 = .ok .retry := by decide
theorem test_decode_abort : decode 0b0011_0000000000000000000000000000#32 = .ok .abort := by decide
theorem test_decode_setle : decode 0b0100_00000000000000000000000000_10#32 = .ok (.setle 2) := by decide
theorem test_decode_ack : decode 0b0101_0000000000000000000000000000#32 = .ok .ack := by decide
theorem test_decode_wrbuf : decode 0b0110_0000_0001001000110100_11111111#32 = .ok (.wrbuf 0x1234 0xFF) := by decide
theorem test_decode_reserved :
    [0x00000001#32, 0x0FFFFFFF#32, 0x10010000#32, 0x1FFF0005#32, 0x20000001#32, 0x38000000#32, 0x40000004#32, 0x50000100#32,
      0x61000000#32, 0x08000000#32].map decode = List.replicate 10 (.error .mustBeZero) := by decide
theorem test_decode_reserved_opcodes :
    [0x70000000#32, 0x80000000#32, 0xF0000000#32, 0xFFFFFFFF#32].map decode = List.replicate 4 (.error .opcode) := by decide
theorem test_decode_reserved_policy : decode 0x40000003#32 = .error .policy := by decide
/-- 20_memory.md rule R55: bits 7:0 are the lowest-addressed byte. -/
theorem test_decode_lanes : decodeLanes [0xFF#8, 0x34#8, 0x12#8, 0x60#8] = .ok (.wrbuf 0x1234 0xFF) := by decide
theorem test_decode_short_lanes : decodeLanes [0xFF#8, 0x34#8, 0x12#8] = .error .length := by decide
theorem test_decode_table_word : decodeTableWord 32 0x10000000 = some (.send 0) := by decide

/-! ## Commands (95 section 2.3) -/

/-- C1 -/
theorem test_send : next? (exec (.send 3) { idle with seq := [(0, 0x1B#8)] })
    (fun t => (t.st, t.len, t.idx, t.treq, t.res.code)) = some (.setData, 3, 0, .write 0x20 0x1B, .none) := by decide
/-- C5 and C4 -/
theorem test_send_zero_and_too_long :
    next? (exec (.send 0) idle) (fun t => (t.resultWord, t.statusWord, t.treq)) = some (0x00000001, 0x00000018, .none) ∧
    next? (exec (.send 17) idle) (fun t => (t.statusWord, t.len)) = some (0x00000020, 0) := by decide
/-- C7 -/
theorem test_retry : next? (exec .retry { deciding with polls := 7#16 })
    (fun t => (t.st, t.cnt, t.polls, t.idx, t.faultWord, t.attn)) = some (.pollWait, 1, 0, 1, 0x1, false) := by decide
/-- C8, and X5 in the cycle of the fault -/
theorem test_retry_rejected :
    next? (exec .retry done2) (fun t => (t.st, t.rej)) = some (.done, true) ∧
    next? (step ((polling 0 1 (.okByte 0x11)).withCommand 0x20000000)) (fun t => t.statusWord) = some 0x00000037 := by decide
/-- C9 -/
theorem test_abort_fault : next? (exec .abort { deciding with idx := 0#16, fault := ⟨true, false, true, false⟩ })
    (fun t => (t.st, t.resultWord)) = some (.done, 0x00000053) := by decide
/-- C10 -/
theorem test_abort_timeout : next? (exec .abort { deciding with idx := 2#16, fault := timeoutReasons })
    (fun t => (t.st, t.resultWord)) = some (.done, 0x00020004) := by decide
/-- C12 and C13 -/
theorem test_setle :
    next? (exec (.setle 1) idle) (fun t => (t.autofeed, t.statusWord)) = some (true, 0x00000240) ∧
    next? (exec (.setle 2) done2) (fun t => (t.autofeed, t.statusWord)) = some (false, 0x00020098) := by decide
/-- C14 and C15 -/
theorem test_setle_rejected :
    next? (exec (.setle 0) { at_ .strobe 0 1 with policy := .hard }) (fun t => (t.rej, t.autofeed)) = some (true, true) ∧
    next? (exec (.setle 3) { idle with policy := .soft }) (fun t => (t.rej, t.policy)) = some (true, .soft) := by decide
/-- C16 -/
theorem test_ack : next? (exec .ack { done2 with rej := true }) (fun t => (t.rej, t.attn, t.resultWord, t.statusWord)) =
    some (false, false, 0x00020001, 0x00020000) := by decide
/-- C18 -/
theorem test_ack_rejected : next? (exec .ack deciding) (fun t => (t.st, t.rej)) = some (.faultWait, true) := by decide
/-- C19 -/
theorem test_wrbuf : next? (exec (.wrbuf 15 0xAA) done2) (fun t => (t.seq, t.rej)) =
    some ([(0, 0x41), (1, 0x40), (15, 0xAA)], false) := by decide
/-- C20 -/
theorem test_wrbuf_rejected : next? (exec (.wrbuf 16 0xBB) done2) (fun t => (t.seq, t.rej)) =
    some ([(0, 0x41), (1, 0x40)], true) := by decide
/-- C22 and C23, the engine in POLL going on -/
theorem test_nop_and_reserved :
    next? (step ((polling 0 2 (.okByte 0x19)).withCommand 0x00000000)) (fun t => (t.st, t.idx, t.rej)) =
      some (.setData, 1, false) ∧
    next? (step ((polling 0 2 (.okByte 0x19)).withCommand 0x70000000)) (fun t => (t.st, t.idx, t.rej)) =
      some (.setData, 1, true) := by decide

/-! ## Engine (95 section 2.4 and 2.7) -/

/-- E2 and E3 -/
theorem test_set_data :
    next? (engineStep (writing .none)) (fun t => (t.st, t.treq)) = some (.setData, .write 0x20 0x41) ∧
    next? (engineStep (writing .ok)) (fun t => (t.st, t.cnt, t.dataQ, t.treq)) = some (.settle, 2, some 0x41, .none) := by
  decide
/-- E9 -/
theorem test_write_error : next? (engineStep (writing .busErr)) (fun t => (t.st, t.treq, t.resultWord, t.dataQ)) =
    some (.done, .none, 0x00000002, none) := by decide
/-- E4 and E5 -/
theorem test_settle :
    next? (engineStep { at_ .settle 0 1 with cnt := 2#16 }) (fun t => (t.st, t.cnt)) = some (.settle, 1) ∧
    next? (engineStep { at_ .settle 0 1 with cnt := 1#16 }) (fun t => (t.st, t.cnt, t.strobe)) = some (.strobe, 3, true) := by
  decide
/-- E6 and E7 -/
theorem test_strobe :
    next? (engineStep { at_ .strobe 0 1 with cnt := 3#16, strobeQ := true }) (fun t => (t.st, t.cnt, t.strobe)) =
      some (.strobe, 2, true) ∧
    next? (engineStep { at_ .strobe 0 1 with cnt := 1#16, strobeQ := true }) (fun t => (t.st, t.strobe)) =
      some (.release, false) := by decide
/-- E8 and E11 -/
theorem test_release_and_poll_wait :
    next? (engineStep { at_ .release 0 1 with polls := 5#16 }) (fun t => (t.st, t.cnt, t.polls)) = some (.pollWait, 1, 0) ∧
    next? (engineStep { at_ .pollWait 0 1 with cnt := 1#16 }) (fun t => (t.st, t.treq)) = some (.poll, .read 0x21) := by decide
/-- E10 -/
theorem test_read_error : next? (engineStep { polling 1 2 .busErr with pstat := exampleDecode 0x19, pvalid := true })
    (fun t => (t.st, t.resultWord, t.pstatWord)) = some (.done, 0x0001000A, 0x00000119) := by decide
/-- E12 and E13 -/
theorem test_poll_ready :
    next? (engineStep (polling 0 2 (.okByte 0x19))) (fun t => (t.st, t.idx, t.treq, t.pstatWord)) =
      some (.setData, 1, .write 0x20 0x40, 0x00000119) ∧
    next? (engineStep (polling 1 2 (.okByte 0x19))) (fun t => (t.st, t.idx, t.resultWord, t.attn)) =
      some (.done, 2, 0x00020001, true) := by decide
/-- E15, E16 and E17 -/
theorem test_poll_fault :
    [0x1D#8, 0x09#8, 0x11#8].map (fun b => next? (engineStep (polling 0 1 (.okByte b))) fun t => (t.st, t.faultWord, t.idx)) =
      [some (.faultWait, 0x1, 0), some (.faultWait, 0x4, 0), some (.faultWait, 0x2, 0)] := by decide
/-- E14, E18 and E19 -/
theorem test_poll_undecided :
    next? (engineStep (polling 0 1 (.okByte 0x1B))) (fun t => (t.st, t.cnt, t.polls, t.pstatWord)) =
      some (.pollWait, 1, 1, 0x0000011B) ∧
    next? (engineStep (bounded 2 { polling 0 1 (.okByte 0x1B) with polls := 1#16 })) (fun t => (t.st, t.polls, t.faultWord)) =
      some (.faultWait, 2, 0x8) ∧
    next? (engineStep (bounded 3 { polling 0 1 (.okByte 0x1B) with polls := 1#16 })) (fun t => (t.st, t.polls)) =
      some (.pollWait, 2) := by decide
/-- X1 and X2 -/
theorem test_polls_saturate :
    next? (engineStep { polling 0 1 (.okByte 0x1B) with polls := 65535#16 }) (fun t => (t.st, t.polls)) =
      some (.pollWait, 65535) ∧
    next? (engineStep (bounded 65535 { polling 0 1 (.okByte 0x1B) with polls := 65534#16 }))
      (fun t => (t.st, t.polls, t.faultWord)) = some (.faultWait, 65535, 0x8) := by decide
/-- E22 -/
theorem test_ack_not_distinguishable :
    classify { params with ackDistinguishable := false } (exampleDecode 0x18) = .ready ∧
    classify params (exampleDecode 0x18) = .undecided := by decide

/-! ## Registers, accesses, reset and notation (95 sections 2.6 and 2.8; P7) -/

/-- H2, H3 and H13 -/
theorem test_status :
    { at_ .faultWait 3 4 with policy := .none }.statusWord = 0x00030017 ∧
    { at_ .strobe 0 1 with policy := .hard, strobeQ := true }.statusWord = 0x00000343 ∧
    { at_ .done 1 1 with policy := .hard }.statusWord = 0x00010258 := by decide
/-- H4, H5 and H6 -/
theorem test_result :
    { idle with res := ⟨.busError, 1#1, noFlags, 5#16⟩ }.resultWord = 0x0005000A ∧
    { idle with res := ⟨.deviceFault, 0#1, ⟨true, true, true⟩, 0x1234#16⟩ }.resultWord = 0x12340073 ∧
    { idle with res := ⟨.timeout, 0#1, noFlags, 0#16⟩ }.resultWord = 0x00000004 := by decide
/-- H10, H11 and H12 -/
theorem test_pstat_fault_len :
    { idle with pstat := exampleDecode 0x1D, pvalid := true }.pstatWord = 0x0000011D ∧
    { idle with fault := timeoutReasons }.faultWord = 0x00000008 ∧ { idle with len := 65535#16 }.lenWord = 0x0000FFFF := by
  decide
/-- A1 to A3 -/
theorem test_reads : [0x00#8, 0x1A#8, 0x18#8, 0x08#8].map done2.hostRead = [0, 0, 0, 0x00020001] := by decide
/-- A4 to A7 -/
theorem test_writes_rejected :
    [0x04#8, 0x08#8, 0x02#8, 0x18#8].map (fun a => next? (hostAccess (.write a 1) idle) fun t => t.statusWord) =
      List.replicate 4 (some 0x00000020) := by decide
/-- P7, cycle 3 -/
theorem test_reset_in_a_write :
    next? (step { writing .none with hostIn := [⟨true, .write 0x00 0x70000000⟩], policy := .hard })
      (fun t => (t.statusWord, t.treq, t.seq)) = some (0, .none, [(0, 0x41), (1, 0x40)]) := by decide
/-- P7, cycle 5: the late answer to the write that reset cut off is given, is no answer to anything else, and is the last. -/
theorem test_late_answer :
    next? (step { writing .none with hostIn := [⟨true, .none⟩] }) (fun t => (t.treq, t.abandoned)) =
      some (.none, .write 0x20 0x41) ∧
    ({ idle with abandoned := .write 0x20 0x41, trespIn := [.ok] }.tresp = .ok ∧
      { idle with abandoned := .write 0x20 0x41, trespIn := [.okByte 0x19] }.tresp = .none) ∧
    next? (step { idle with abandoned := .write 0x20 0x41, trespIn := [.ok] }) (fun t => (t.st, t.abandoned)) =
      some (.idle, .none) := by decide
/-- P7 where the open point keeps SEQ, and R57 where it does not; a WRBUF after the reset is known in both. -/
theorem test_seq_after_reset :
    [true, false].map (fun k => ({ done2 with seqKept := k } : State).resetElements.known 0) = [some 0x41, none] ∧
    (({ done2 with seqKept := false } : State).resetElements.memWrite 0 0x55).known 0 = some 0x55 := by decide
/-- R6 and R21: an active-low line is driven to the complement of its logical value. -/
theorem test_levels : (at_ .release 0 1).strobeLevel = true ∧ (at_ .release 0 1).autofeedLevel = false := by decide
/-- 30_encoding.md rules R80 and R81 -/
theorem test_parse :
    (parseLine "WRBUF 0x1234, 0xFF ; top".toList).toOption = some (some (.cmd (.wrbuf 0x1234 255))) ∧
    (parseLine "SETLE SOFT".toList).toOption = some (some (.cmd (.setle .soft))) ∧
    (parseLine "RD PSTAT".toList).toOption = some (some (.rd 0x0C)) := by decide
theorem test_print : assemble (.print [27, 64]) = .ok [.wrbuf 0 27, .wrbuf 1 64, .send 2] := by decide
/-- T1 -/
theorem test_transfer_cycles : transferCycles params 2 1 1 = 18 := by decide

/-! ## Witnesses: states and operands that meet the hypotheses of the statements -/

/-- A concrete state meets the invariant: `v` is the byte it carries, `c` the duration of its state. -/
theorem inv_of (s : State) (v : Byte)
    (h : s.seq.wf = true ∧ s.seq.below s.params.seqMax.toNat = true ∧ s.len.toNat ≤ s.params.seqMax.toNat ∧
      (s.st.inTransfer = true → s.idx.toNat < s.len.toNat) ∧ (s.st = .done → s.idx.toNat ≤ s.len.toNat) ∧
      (s.known s.idx.toNat = none ∨ s.known s.idx.toNat = some v) ∧
      (s.st = .setData → s.treq = .write s.params.dataAddr v) ∧ (s.st = .poll → s.treq = .read s.params.statusAddr) ∧
      (s.st ≠ .setData → s.st ≠ .poll → s.treq = .none) ∧ (s.strobeQ = true ↔ s.st = .strobe) ∧
      (s.st = .settle ∨ s.st = .strobe ∨ s.st = .pollWait → 1 ≤ s.cnt.toNat) ∧
      (s.st = .settle → s.cnt.toNat ≤ s.params.settleCycles.toNat) ∧
      (s.st = .strobe → s.cnt.toNat ≤ s.params.strobeCycles.toNat) ∧
      (s.st = .pollWait → s.cnt.toNat ≤ s.params.pollCycles.toNat) ∧
      (s.st.inTransfer = true → s.st ≠ .setData → s.dataQ = some v) ∧
      (s.st = .pollWait ∨ s.st = .poll → s.params.maxPolls ≠ 0#16 → s.polls.toNat < s.params.maxPolls.toNat) ∧
      (s.res.code = .none → s.res = noResult) ∧ (s.res.code ≠ .busError → s.res.phase = 0#1) ∧
      (s.res.code = .deviceFault ↔ s.res.flags ≠ noFlags) ∧ (s.st.inTransfer = true → s.res = noResult))
    (h' : (s.st = .done → s.res.code ≠ .none ∧ s.res.ridx = s.idx ∧ (s.res.code = .ok → s.idx = s.len) ∧
        (s.res.code ≠ .ok → s.idx.toNat < s.len.toNat)) ∧
      (s.fault.timeout = true → s.fault.flags = noFlags) ∧ (s.st = .faultWait → s.fault ≠ noReasons) ∧
      (s.pvalid = false → s.pstat = ⟨false, false, false, false, false⟩) ∧
      s.seqOld.Sublist (s.seq.map Prod.fst) ∧ (s.treq ≠ .none → s.abandoned = .none)) : s.Inv := by
  obtain ⟨a1, a2, a3, a4, a5, a6, a7, a8, a9, a10, a11, a12, a13, a14, a15, a16, a17, a18, a19, a20⟩ := h
  obtain ⟨b1, b2, b3, b4, c1, c2⟩ := h'
  have hv : s.isCurrentByte v := by
    intro b hb
    rcases a6 with e | e <;> rw [e] at hb <;> simp_all
  refine ⟨a1, a2, c1, a3, a4, a5, fun e => ⟨v, a7 e, hv⟩, a8, a9, c2, a10, ?_, fun e e' => ⟨v, a15 e e', hv⟩, a16, a17, a18, a19, a20,
    b1, b2, b3, b4⟩
  intro c hc
  cases hs : s.st <;> simp_all [timedCycles]

theorem idle_inv : idle.Inv := inv_of _ 0 (by decide) (by decide)
theorem done_inv : done2.Inv := inv_of _ 0 (by decide) (by decide)
theorem deciding_inv : deciding.Inv := inv_of _ 0x40 (by decide) (by decide)
theorem writing_inv : (writing .busErr).Inv := inv_of _ 0x41 (by decide) (by decide)
theorem written_inv : (writing .ok).Inv := inv_of _ 0x41 (by decide) (by decide)
theorem polling_ready_inv : (polling 0 2 (.okByte 0x19)).Inv := inv_of _ 0x41 (by decide) (by decide)
theorem polling_last_inv : (polling 1 2 (.okByte 0x19)).Inv := inv_of _ 0x40 (by decide) (by decide)
theorem polling_fault_inv : (polling 0 1 (.okByte 0x1D)).Inv := inv_of _ 0x41 (by decide) (by decide)
theorem polling_error_inv : (polling 1 2 .busErr).Inv := inv_of _ 0x40 (by decide) (by decide)

/-- DecodeOfEncode, EncodeOfDecode, ReservedWordsExactly, OpcodeMapIsTheDecoder -/
theorem witness_encoding :
    (Instr.wrbuf 0xFFFF 0xFF).wellFormed = true ∧ decode 0x60FFFFFF#32 = .ok (.wrbuf 0xFFFF 0xFF) ∧
    decode 0x70000000#32 = .error .opcode ∧ decode 0x10010000#32 = .error .mustBeZero ∧ decode 0x40000003#32 = .error .policy ∧
    (Instr.setle 0).row ∈ opcodeMap ∧ (Instr.setle 0).row.matchesWord 0x40000002#32 = true ∧
    (Instr.setle 0).row.matchesWord 0x40000003#32 = false ∧ 7#4 ≤ bits 31 28 0x70000000#32 := by decide

/-- OperandsNeverTruncated -/
theorem witness_operands : 65535 ≤ 65535 ∧ 65535 < 65536 ∧ 255 ≤ 255 ∧ (65535 < 65536 ∨ 255 < 0) ∧ (65535 < 0 ∨ 255 < 256) := by
  decide

/-- PseudoInstructionsExpand, at the end of the range and just past it -/
theorem witness_pseudo_instructions :
    [1, 255] ≠ [] ∧ (∀ v ∈ [1, 255], v ≤ 255) ∧ 65534 + ([1, 255].length - 1) ≤ 65535 ∧
    65535 < 65535 + ([1, 255].length - 1) ∧ [1, 255].length ≤ 65535 ∧ (∃ v ∈ [1, 256], 255 < v) ∧
    65535 < (List.replicate 65536 0).length :=
  ⟨by decide, by decide, by decide, by decide, by decide, ⟨256, by decide, by decide⟩, by rw [List.length_replicate]; decide⟩

/-- NopHasNoEffect -/
theorem witness_nop : bits 31 28 0x00000001#32 = 0#4 ∧ 0x00000001#32 ≠ 0x00000000#32 ∧ decode 0x00000000#32 = .ok .nop ∧
    ((polling 0 2 (.okByte 0x19)).withCommand 0x00000000).pins.rst = false ∧
    ((polling 0 2 (.okByte 0x19)).withCommand 0x00000000).pins.access = .write 0x00 0x00000000 ∧
    ∃ e, engineStep ((polling 0 2 (.okByte 0x19)).withCommand 0x00000000) = .next e :=
  ⟨by decide, by decide, by decide, rfl, rfl, ⟨_, rfl⟩⟩

/-- SendStartsTransfer: accepted with 0 and with `SEQ_MAX`, rejected with `SEQ_MAX + 1` and in a transfer -/
theorem witness_send :
    (idle.st = .idle ∨ idle.st = .done) ∧ (done2.st = .idle ∨ done2.st = .done) ∧
    16#16 ≠ 0#16 ∧ (16#16).toNat ≤ idle.params.seqMax.toNat ∧ idle.known 0 = none ∧ done2.known 0 = some 0x41 ∧
    ¬ ((idle.st = .idle ∨ idle.st = .done) ∧ (17#16).toNat ≤ idle.params.seqMax.toNat) ∧
    ¬ ((deciding.st = .idle ∨ deciding.st = .done) ∧ (1#16).toNat ≤ deciding.params.seqMax.toNat) := by decide

/-- RetryResumesPolling, AbortReportsTheFault, DecisionPointExits -/
theorem witness_decision :
    deciding.st = .faultWait ∧ deciding.fault.timeout = false ∧ { deciding with fault := timeoutReasons }.st = .faultWait ∧
    { deciding with fault := timeoutReasons }.fault.timeout = true ∧ idle.st ≠ .faultWait := by decide

/-- SetleSetsThePolicy, AckCollectsTheResult -/
theorem witness_setle_ack :
    done2.st = .done ∧ idle.st = .idle ∧ (at_ .release 0 1).st ≠ .idle ∧ (at_ .release 0 1).st ≠ .done := by decide

/-- WrbufStoresOneByte -/
theorem witness_wrbuf :
    (15#16).toNat < done2.params.seqMax.toNat ∧ done2.seq.wf = true ∧ (0 : Nat) ≠ (15#16).toNat ∧
    ¬ ((done2.st = .idle ∨ done2.st = .done) ∧ (16#16).toNat < done2.params.seqMax.toNat) ∧
    ¬ ((deciding.st = .idle ∨ deciding.st = .done) ∧ (0#16).toNat < deciding.params.seqMax.toNat) := by decide

/-- AcceptanceTable, RejWriters -/
theorem witness_acceptance :
    acceptedIn idle .ack ∧ acceptedIn idle (.send 16) ∧ ¬ acceptedIn idle (.send 17) ∧ ¬ acceptedIn done2 .retry ∧
    ((polling 0 2 (.okByte 0x19)).withCommand 0x10000001).rejects ∧
    (∃ e, engineStep ((polling 0 2 (.okByte 0x19)).withCommand 0x10000001) = .next e) ∧
    (∃ t, step ((polling 0 2 (.okByte 0x19)).withCommand 0x10000001) = .next t ∧ t.rej = true) ∧
    (∃ t, step ({ done2 with rej := true }.withCommand 0x50000000) = .next t ∧ t.rej = false) := by
  refine ⟨.inl rfl, by simp only [acceptedIn]; decide, by simp only [acceptedIn]; decide, by simp only [acceptedIn]; decide,
    ⟨rfl, 0x00, 0x10000001, rfl, .inr (.inr ⟨.send 1, by decide, by simp only [acceptedIn]; decide⟩)⟩, ⟨_, rfl⟩, ⟨_, rfl, rfl⟩,
    ⟨_, rfl, rfl⟩⟩

/-- CommandFrame -/
theorem witness_command_frame : (∃ t, exec (.wrbuf 15 0xAA) done2 = .next t) ∧ (∃ t, exec .abort deciding = .next t) :=
  ⟨⟨_, rfl⟩, ⟨_, rfl⟩⟩

/-- AccessesOutsideTheRules, RegisterMap -/
theorem witness_addresses :
    (0x03#8).toNat % 4 ≠ 0 ∧ 0x18 ≤ (0x18#8).toNat ∧ 0x18 ≤ (0xFC#8).toNat ∧ 0x04 ≤ (0x04#8).toNat ∧
    (0x14#8).toNat ≤ 0x14 := by decide

/-- ClassificationCounts -/
theorem witness_classification :
    (params.ackDistinguishable = true ∧ { params with ackDistinguishable := false }.ackDistinguishable = false) ∧
    ((true = true ∨ true = false ∨ true = false) ∧ (false = true ∨ false = false ∨ true = false) ∧
      (false = true ∨ true = false ∨ false = false)) := by decide

/-- CycleJoinsEngineAndHost, StepRunsTheWrittenCommand, ResetCycle -/
theorem witness_cycle :
    { idle with hostIn := [⟨true, .none⟩] }.pins.rst = true ∧
    (done2.withCommand 0x50000000).pins.rst = false ∧ (done2.withCommand 0x50000000).st.inert = true ∧
    (∃ h, hostAccess (done2.withCommand 0x50000000).pins.access (done2.withCommand 0x50000000) = .next h) ∧
    (done2.withCommand 0x50000000).pins.access = .write 0x00 0x50000000 ∧ decode 0x50000000#32 = .ok .ack ∧
    (∃ h, exec .ack (done2.withCommand 0x50000000) = .next h) ∧
    ((polling 0 2 (.okByte 0x19)).withCommand 0x50000000).st.inert = false ∧
    (∃ e, engineStep ((polling 0 2 (.okByte 0x19)).withCommand 0x50000000) = .next e) :=
  ⟨rfl, rfl, rfl, ⟨_, rfl⟩, rfl, by decide, ⟨_, rfl⟩, rfl, ⟨_, rfl⟩⟩

/-- SetDataAnswered, PollAnswered -/
theorem witness_answers :
    (writing .ok).st = .setData ∧ (writing .ok).treq = .write 0x20 0x41 ∧ (writing .ok).tresp = .ok ∧
    (writing .none).tresp = .none ∧ (writing .busErr).tresp = .busErr ∧
    (polling 0 1 .none).st = .poll ∧ (polling 0 1 .none).treq = .read 0x21 ∧ (polling 0 1 .none).tresp = .none ∧
    (polling 1 2 .busErr).tresp = .busErr ∧ (polling 0 1 (.okByte 0x1D)).tresp = .okByte 0x1D ∧
    classify params (decodeStatus params 0x1D) = .fault ⟨true, false, false⟩ := by decide

/-- TimedStatesCountDown, TimedStateLastsItsCount -/
theorem witness_timed :
    1 < { at_ .settle 0 1 with cnt := 2#16 }.cnt.toNat ∧ { at_ .settle 0 1 with cnt := 1#16 }.cnt.toNat ≤ 1 ∧
    timedCycles params .settle = some ⟨2#16, by decide⟩ ∧ timedCycles params .strobe = some ⟨3#16, by decide⟩ ∧
    timedCycles params .pollWait = some ⟨1#16, by decide⟩ ∧
    { at_ .strobe 0 1 with cnt := 3#16, strobeQ := true }.noResetFor 3 ∧
    (∃ t, step (writing .ok) = .next t ∧ t.st ≠ (writing .ok).st ∧ timedCycles t.params t.st = some ⟨2#16, by decide⟩) :=
  ⟨by decide, by decide, rfl, rfl, rfl, by simp [State.noResetFor, at_, idle, State.reset], ⟨_, rfl, by decide, rfl⟩⟩

/-- PollReadyAdvances -/
theorem witness_ready :
    classify params (decodeStatus params 0x19) = .ready ∧ (polling 0 2 (.okByte 0x19)).tresp = .okByte 0x19 ∧
    (polling 0 2 (.okByte 0x19)).idx < (polling 0 2 (.okByte 0x19)).len ∧
    (polling 0 2 (.okByte 0x19)).len.toNat ≤ params.seqMax.toNat ∧ (0#16).toNat + 1 ≠ (2#16).toNat ∧
    (polling 1 2 (.okByte 0x19)).idx < (polling 1 2 (.okByte 0x19)).len ∧ (1#16).toNat + 1 = (2#16).toNat := by decide

/-- PollUndecidedOrTimeout: no bound, one below the bound, at the bound, and saturated -/
theorem witness_undecided :
    classify params (decodeStatus params 0x1B) = .undecided ∧ params.maxPolls = 0#16 ∧
    (2#16).toNat = min ((1#16).toNat + 1) 65535 ∧ (2#16).toNat < { params with maxPolls := 3#16 }.maxPolls.toNat ∧
    { params with maxPolls := 2#16 }.maxPolls.toNat ≤ (2#16).toNat ∧ { params with maxPolls := 2#16 }.maxPolls ≠ 0#16 ∧
    (65535#16).toNat = min ((65535#16).toNat + 1) 65535 := by decide

/-- InertStatesWait -/
theorem witness_inert : (done2.withCommand 0x50000000).st = .done ∧
    ∃ t, step (done2.withCommand 0x50000000) = .next t ∧ t.st ≠ (done2.withCommand 0x50000000).st :=
  ⟨rfl, ⟨_, rfl, by decide⟩⟩

/-- BusErrorEndsTheTransfer, in both phases -/
theorem witness_bus_error :
    ((writing .busErr).Inv ∧ (writing .busErr).pins.rst = false ∧ (writing .busErr).tresp = .busErr ∧
      (writing .busErr).st = .setData) ∧
    ((polling 1 2 .busErr).Inv ∧ (polling 1 2 .busErr).pins.rst = false ∧ (polling 1 2 .busErr).tresp = .busErr ∧
      (polling 1 2 .busErr).st = .poll) :=
  ⟨⟨writing_inv, rfl, rfl, rfl⟩, ⟨polling_error_inv, rfl, rfl, rfl⟩⟩

/-- DecisionPointEntry -/
theorem witness_decision_entry : (polling 0 1 (.okByte 0x1D)).Inv ∧
    ∃ t, step (polling 0 1 (.okByte 0x1D)) = .next t ∧ (polling 0 1 (.okByte 0x1D)).st ≠ .faultWait ∧ t.st = .faultWait :=
  ⟨polling_fault_inv, ⟨_, rfl, by decide, rfl⟩⟩

/-- DecisionPointExits, by RETRY and by ABORT -/
theorem witness_decision_exits :
    (∃ t, step (deciding.withCommand 0x20000000) = .next t ∧ t.st = .pollWait ∧
      (deciding.withCommand 0x20000000).issues .retry) ∧
    (∃ t, step (deciding.withCommand 0x30000000) = .next t ∧ t.st = .done ∧
      (deciding.withCommand 0x30000000).issues .abort) :=
  ⟨⟨_, rfl, rfl, rfl, _, rfl, by decide⟩, ⟨_, rfl, rfl, rfl, _, rfl, by decide⟩⟩

/-- RetryInTheFaultingCycleRejected -/
theorem witness_retry_with_the_fault :
    ((polling 0 1 (.okByte 0x11)).withCommand 0x20000000).issues .retry ∧
    ((polling 0 1 (.okByte 0x11)).withCommand 0x20000000).pollsAs (.fault ⟨false, true, false⟩) :=
  ⟨⟨rfl, _, rfl, by decide⟩, ⟨rfl, rfl, rfl, 0x11, rfl, by decide⟩⟩

/-- AttnRisesAndFalls -/
theorem witness_attn :
    (∃ t, step (idle.withCommand 0x10000000) = .next t ∧ idle.attn = false ∧ t.attn = true) ∧
    (∃ t, step (polling 0 1 (.okByte 0x1D)) = .next t ∧ (polling 0 1 (.okByte 0x1D)).attn = false ∧ t.attn = true) ∧
    (∃ t, step (deciding.withCommand 0x20000000) = .next t ∧ deciding.attn = true ∧ t.attn = false) :=
  ⟨⟨_, rfl, rfl, rfl⟩, ⟨_, rfl, rfl, rfl⟩, ⟨_, rfl, rfl, rfl⟩⟩

/-- NoTimeoutWithoutABound -/
theorem witness_no_bound : (polling 0 1 (.okByte 0x1B)).params.maxPolls = 0#16 ∧
    (polling 0 1 (.okByte 0x1B)).fault.timeout = false ∧ ∃ t, step (polling 0 1 (.okByte 0x1B)) = .next t :=
  ⟨rfl, rfl, ⟨_, rfl⟩⟩

/-- TransferEnds: with OK, with a bus error, by ABORT -/
theorem witness_transfer_ends :
    ((polling 1 2 (.okByte 0x19)).Inv ∧ ∃ t, step (polling 1 2 (.okByte 0x19)) = .next t ∧ t.st = .done) ∧
    ((writing .busErr).Inv ∧ ∃ t, step (writing .busErr) = .next t ∧ t.st = .done) ∧
    (deciding.Inv ∧ ∃ t, step (deciding.withCommand 0x30000000) = .next t ∧ t.st = .done) :=
  ⟨⟨polling_last_inv, ⟨_, rfl, rfl⟩⟩, ⟨writing_inv, ⟨_, rfl, rfl⟩⟩, ⟨deciding_inv, ⟨_, rfl, rfl⟩⟩⟩

/-- IndexWriters: a READY poll and a SEND -/
theorem witness_index :
    ((polling 0 2 (.okByte 0x19)).Inv ∧ ∃ t, step (polling 0 2 (.okByte 0x19)) = .next t ∧ t.idx = 1) ∧
    (done2.Inv ∧ ∃ t, step (done2.withCommand 0x10000000) = .next t ∧ done2.idx = 2 ∧ t.idx = 0) :=
  ⟨⟨polling_ready_inv, ⟨_, rfl, rfl⟩⟩, ⟨done_inv, ⟨_, rfl, rfl, rfl⟩⟩⟩

/-- LengthPolicyAndBufferWriters, FaultAndResultWriters: SEND, SETLE and WRBUF, an entry into DONE and a reset -/
theorem witness_host_writers :
    (∃ t, step (done2.withCommand 0x10000003) = .next t ∧ t.len ≠ done2.len ∧ t.res ≠ done2.res) ∧
    (∃ t, step (done2.withCommand 0x40000001) = .next t ∧ t.policy ≠ done2.policy) ∧
    (∃ t, step (done2.withCommand 0x60000FAA) = .next t ∧ t.seq.lookup 15 ≠ done2.seq.lookup 15 ∧
      t.known 15 ≠ done2.known 15) ∧
    (∃ t, step (polling 1 2 (.okByte 0x19)) = .next t ∧ t.res ≠ (polling 1 2 (.okByte 0x19)).res) ∧
    (∃ t, step (done2.withCommand 0x10000000) = .next t ∧ t.res ≠ done2.res) ∧
    (∃ t, step { done2 with seqKept := false, hostIn := [⟨true, .none⟩] } = .next t ∧ t.known 0 ≠ done2.known 0 ∧
      t.res ≠ done2.res) ∧
    (∃ t, step (polling 0 1 (.okByte 0x1D)) = .next t ∧ t.fault ≠ (polling 0 1 (.okByte 0x1D)).fault) :=
  ⟨⟨_, rfl, by decide, by decide⟩, ⟨_, rfl, by decide⟩, ⟨_, rfl, by decide, by decide⟩, ⟨_, rfl, by decide⟩,
    ⟨_, rfl, by decide⟩, ⟨_, rfl, by decide, by decide⟩, ⟨_, rfl, by decide⟩⟩

/-- BufferAndAutofeedFixedInATransfer -/
theorem witness_transfer : (deciding.withCommand 0x60000FAA).st.inTransfer = true ∧
    (deciding.withCommand 0x60000FAA).pins.rst = false ∧ ∃ t, step (deciding.withCommand 0x60000FAA) = .next t :=
  ⟨rfl, rfl, ⟨_, rfl⟩⟩

/-- DataAndStatusWriters, StepKeepsInvariant, InvariantStatesAlwaysStep: states of the invariant whose step moves -/
theorem witness_engine_writers :
    ((writing .ok).Inv ∧ ∃ t, step (writing .ok) = .next t ∧ t.dataQ ≠ (writing .ok).dataQ) ∧
    ((polling 0 2 (.okByte 0x19)).Inv ∧ ∃ t, step (polling 0 2 (.okByte 0x19)) = .next t ∧
      t.pvalid ≠ (polling 0 2 (.okByte 0x19)).pvalid) :=
  ⟨⟨written_inv, ⟨_, rfl, by decide⟩⟩, ⟨polling_ready_inv, ⟨_, rfl, by decide⟩⟩⟩

/-- RequestsAreTheEnginesTwo -/
theorem witness_requests :
    (∃ t, step (done2.withCommand 0x10000001) = .next t ∧ t.treq ≠ done2.treq ∧ t.treq ≠ .none) ∧
    (∃ t, step { at_ .pollWait 0 1 with cnt := 1#16 } = .next t ∧ t.treq ≠ (at_ .pollWait 0 1).treq ∧ t.treq ≠ .none) :=
  ⟨⟨_, rfl, by decide, by decide⟩, ⟨_, rfl, by decide, by decide⟩⟩

/-- RequestHeldUntilAnswered: no answer, an answer to a write and to a read, a late answer, and a reset that cuts a request off -/
theorem witness_requests_held :
    ((writing .none).Inv ∧ (writing .none).tresp = .none ∧ (writing .ok).tresp ≠ .none ∧
      (polling 0 2 (.okByte 0x19)).tresp ≠ .none ∧ (polling 0 2 .ok).tresp = .none) ∧
    ({ idle with abandoned := .read 0x21, trespIn := [.busErr] }.treq = .none ∧
      { idle with abandoned := .read 0x21, trespIn := [.busErr] }.tresp ≠ .none ∧
      ∃ t, step { idle with abandoned := .read 0x21, trespIn := [.busErr] } = .next t) ∧
    ({ writing .none with hostIn := [⟨true, .none⟩] }.pins.rst = true ∧
      { writing .none with hostIn := [⟨true, .none⟩] }.treq ≠ .none ∧
      ∃ t, step { writing .none with hostIn := [⟨true, .none⟩] } = .next t) :=
  ⟨⟨inv_of _ 0x41 (by decide) (by decide), by decide, by decide, by decide, by decide⟩, ⟨rfl, by decide, ⟨_, rfl⟩⟩,
    ⟨rfl, by decide, ⟨_, rfl⟩⟩⟩

/-- ByteBegunBySendOrReady: by SEND and by a READY poll -/
theorem witness_byte_begun :
    (done2.Inv ∧ ∃ t, step (done2.withCommand 0x10000001) = .next t ∧ t.st = .setData ∧ done2.st ≠ .setData) ∧
    ((polling 0 2 (.okByte 0x19)).Inv ∧ ∃ t, step (polling 0 2 (.okByte 0x19)) = .next t ∧ t.st = .setData) :=
  ⟨⟨done_inv, _, rfl, rfl, by decide⟩, ⟨polling_ready_inv, _, rfl, rfl⟩⟩

/-- StrobedBytesExact -/
theorem witness_strobed : (⟨polling 0 2 (.okByte 0x19), [0], []⟩ : Traced).state.Inv ∧
    (⟨polling 0 2 (.okByte 0x19), [0], []⟩ : Traced).exact ∧ ∃ t, step (polling 0 2 (.okByte 0x19)) = .next t :=
  ⟨polling_ready_inv, fun _ => ⟨1, rfl, rfl, rfl⟩, ⟨_, rfl⟩⟩

/-- ByteValuesDecideNothing -/
theorem witness_byte_values :
    (writing .ok).hideBytes = { writing .ok with treq := .write 0x20 0xFF#8, seq := [(0, 0xFF#8), (1, 0#8)] }.hideBytes ∧
    ∃ t, step (writing .ok) = .next t := ⟨rfl, ⟨_, rfl⟩⟩

/-- A byte of one write cycle: an undecided poll of one cycle, then a READY one of two. -/
def script : ByteScript := ⟨0, List.replicate 6 .busErr, [⟨[.ok], 0, 0x1B⟩], ⟨[.none], 1, 0x19⟩⟩

def oneByte : State := bounded 2 { writing .ok with trespIn := script.offers }

/-- The host sends that byte twice, the answers of the SEND cycle itself being ignored. -/
def twoBytes : State :=
  { done2.withCommand 0x10000002 with params := { params with maxPolls := 2#16 }, trespIn := .ok :: script.offers ++ script.offers }

/-- ByteTimeline: one byte, with a first and a last poll round; two bytes; equal latencies -/
theorem witness_timeline :
    (oneByte.Inv ∧ oneByte.st = .setData ∧ script.plays oneByte.params ∧ oneByte.trespIn = script.offers ++ [] ∧
      oneByte.noResetFor (script.cycles oneByte.params) ∧
      script.rounds = [] ++ ⟨[.ok], 0, 0x1B⟩ :: [⟨[.none], 1, 0x19⟩] ∧ script.rounds = [⟨[.ok], 0, 0x1B⟩] ++ ⟨[.none], 1, 0x19⟩ :: []) ∧
    (twoBytes.Inv ∧ twoBytes.issues (.send 2) ∧ acceptedIn twoBytes (.send 2) ∧ (2#16).toNat = [script, script].length ∧
      (∀ b ∈ [script, script], b.plays twoBytes.params) ∧
      twoBytes.trespIn = .ok :: [script, script].flatMap ByteScript.offers ++ [] ∧
      twoBytes.noResetFor (1 + scriptCycles twoBytes.params [script, script])) ∧
    (∀ b ∈ [{ script with undecided := [] }], b.undecided = [] ∧ b.late + 1 = 1 ∧ b.last.late + 1 = 2) := by
  have hp : script.plays { params with maxPolls := 2#16 } :=
    ⟨by decide, by simp only [PollScript.endsAs]; decide, by simp only [PollScript.endsAs]; decide, .inr (by decide)⟩
  refine ⟨⟨inv_of _ 0x41 (by decide) (by decide), rfl, hp, rfl, ?_, rfl, rfl⟩,
    ⟨inv_of _ 0 (by decide) (by decide), ⟨rfl, _, rfl, by decide⟩, ⟨.inr rfl, by decide⟩, rfl, ?_, rfl, ?_⟩, by decide⟩
  · simp [State.noResetFor, oneByte, bounded, writing, at_, idle, State.reset]
  · intro b hb
    rcases List.mem_pair.mp hb with rfl | rfl <;> exact hp
  · intro q hq
    have : q ∈ [(⟨false, .write 0x00 0x10000002⟩ : HostPins)] := List.mem_of_mem_take hq
    rw [List.mem_singleton.mp this]

/-- A polling round that ends undecided. -/
def oneRound : State := { at_ .pollWait 0 1 with cnt := 1#16, trespIn := [.none, .okByte 0x1B] }

/-- UndecidedPollRound: without a bound, and at the last count below one -/
theorem witness_round :
    oneRound.Inv ∧ oneRound.st = .pollWait ∧ oneRound.cnt = oneRound.params.pollCycles.val ∧
    oneRound.params.maxPolls = 0#16 ∧ classify oneRound.params (decodeStatus oneRound.params 0x1B) = .undecided ∧
    [Tresp.none].length = oneRound.params.pollCycles.toNat ∧
    oneRound.trespIn = [.none] ++ List.replicate 0 .none ++ [.okByte 0x1B] ++ [] ∧
    oneRound.noResetFor (undecidedCycles oneRound.params (0 + 1)) ∧
    (bounded 3 { oneRound with polls := 1#16 }).Inv ∧
    min ((bounded 3 { oneRound with polls := 1#16 }).polls.toNat + 1) 65535 <
      (bounded 3 { oneRound with polls := 1#16 }).params.maxPolls.toNat :=
  ⟨inv_of _ 0x41 (by decide) (by decide), rfl, rfl, rfl, by decide, rfl, rfl,
    by simp [State.noResetFor, oneRound, at_, idle, State.reset], inv_of _ 0x41 (by decide) (by decide), by decide⟩

end Sys2Proof.Tests
end

section
/-! What a step does, said by its cause: the case of each accepted command, beside the engine's `EngineCase`, and the
events of a cycle that the statements name. -/
namespace Sys2Proof.Machine

/-! ## What a command does, and the host's and the engine's events of a cycle -/

/-- The next state `x` of an accepted command that is not NOP. -/
inductive CommandCase (s x : State) : Instr → Prop
  | sendEmpty (hb : s.st.betweenTransfers = true)
      (he : x = { s.loadTransfer 0#16 with st := .done, res := ⟨.ok, 0#1, noFlags, 0#16⟩ }) : CommandCase s x (.send 0#16)
  | sendBytes (n : Half) (hb : s.st.betweenTransfers = true) (hl : s.lengthFits n = true) (hn : n ≠ 0#16)
      (he : x = { s.loadTransfer n with res := noResult }.beginByte 0#16) : CommandCase s x (.send n)
  | retry (hs : s.st = .faultWait) (he : x = s.resume) : CommandCase s x .retry
  | abortTimeout (hs : s.st = .faultWait) (hf : s.fault.timeout = true) (he : x = s.finish .timeout 0#1 noFlags s.idx) :
      CommandCase s x .abort
  | abortFault (hs : s.st = .faultWait) (hf : s.fault.timeout = false)
      (he : x = s.finish .deviceFault 0#1 s.fault.flags s.idx) : CommandCase s x .abort
  | setle (pol : BitVec 2) (p : LinePolicy) (hp : LinePolicy.ofBits pol = some p) (hb : s.st.betweenTransfers = true)
      (he : x = { s with policy := p }) : CommandCase s x (.setle pol)
  | ack (hb : s.st.betweenTransfers = true) (he : x = { s with rej := false, st := .idle }) : CommandCase s x .ack
  | wrbuf (a : Half) (v : Byte) (hb : s.st.betweenTransfers = true) (hl : s.indexFits a = true) (he : x = s.memWrite a v) :
      CommandCase s x (.wrbuf a v)

theorem command_cases {s x : State} {i : Instr} (hn : i ≠ .nop) (ha : acceptedIn s i) (hx : exec i s = .next x) :
    CommandCase s x i := by
  obtain ⟨rfl, _⟩ | ⟨n, rfl, hb, hl, ⟨rfl, he⟩ | ⟨h0, he⟩⟩ | ⟨rfl, hs, he⟩ | ⟨rfl, hs, he⟩ | ⟨pol, p, rfl, hp, hb, he⟩ |
    ⟨rfl, hb, he⟩ | ⟨a, v, rfl, hb, hl, he⟩ := exec_accepted ha hx
  · exact absurd rfl hn
  · exact .sendEmpty hb he
  · exact .sendBytes n hb hl h0 he
  · exact .retry hs he
  · unfold State.abandon at he
    split at he
    · exact .abortTimeout hs ‹_› he
    · next hf => exact .abortFault hs (Bool.eq_false_iff.mpr hf) he
  · exact .setle pol p hp hb he
  · exact .ack hb he
  · exact .wrbuf a v hb hl he

theorem startsTransfer_iff (s : State) :
    s.startsTransfer = true ↔ ∃ n, s.issues (.send n) ∧ acceptedIn s (.send n) := by
  constructor
  · intro h
    simp only [State.startsTransfer, Bool.and_eq_true, Bool.not_eq_true'] at h
    obtain ⟨hr, h⟩ := h
    split at h
    · next a w ha =>
      split at h
      · next n hd =>
        simp only [Bool.and_eq_true, beq_iff_eq, betweenTransfers_iff, lengthFits_iff] at h
        obtain ⟨⟨rfl, hs⟩, hn⟩ := h
        exact ⟨n, ⟨hr, w, ha, hd⟩, hs, hn⟩
      · cases h
    · cases h
  · rintro ⟨n, ⟨hr, w, ha, hd⟩, hs, hn⟩
    have hb := (betweenTransfers_iff _).mpr hs
    simp [State.startsTransfer, hr, ha, hd, hb, hn]

theorem step_command {s x : State} {i : Instr} (hn : i ≠ .nop) (hw : s.issues i) (ha : acceptedIn s i)
    (hx : exec i s = .next x) : step s = .next (s.tick x) := by
  obtain ⟨hr, w, hc, hd⟩ := hw
  exact step_inert hr (inert_of_accepted ha hn) (by rw [hc, hostAccess_command hd, hx])

theorem seesReady_iff (s : State) : s.seesReady = true ↔ s.pollsAs .ready := by
  simp only [State.seesReady, State.pollsAs, Bool.and_eq_true, Bool.not_eq_true', beq_iff_eq, and_assoc]
  refine and_congr_right fun _ => and_congr_right fun _ => and_congr_right fun _ => ?_
  cases s.tresp <;> simp

/-- What a step does, but for `rej`: a reset, a cycle in which nothing moves, an accepted command, or the engine's step. -/
inductive StepCause (s t : State) : Prop
  | reset (hr : s.pins.rst = true) (ht : t = s.tick s.resetElements)
  | waits (r : Bool) (hr : s.pins.rst = false) (hi : s.st.inert = true) (ht : t = s.tick { s with rej := r })
  | command (i : Instr) (x : State) (hr : s.pins.rst = false) (hi : s.st.inert = true) (hw : s.issues i)
      (ha : acceptedIn s i) (hc : CommandCase s x i) (ht : t = s.tick x)
  | engine (e : State) (r : Bool) (hr : s.pins.rst = false) (hi : s.st.inert = false) (he : engineStep s = .next e)
      (hc : EngineCase s e) (ht : t = s.tick { e with rej := r })

theorem step_cause {s t : State} (hst : step s = .next t) : StepCause s t := by
  cases step_what hst with
  | reset hr ht => exact .reset hr ht
  | quiet hr hi hj ht => exact .waits s.rej hr hi ht
  | rejected hr hi hj ht => exact .waits true hr hi ht
  | command i x hr hi hn hw ha hx hj ht => exact .command i x hr hi hw ha (command_cases hn ha hx) ht
  | engine e r hr hi he hj ht => exact .engine e r hr hi he (engineStep_cases hi he) ht

/-- A poll answered `OK(b)` replaces the status. -/
theorem pollAnswered_status {s e : State} {b : Byte} (h : pollAnswered s b = .next e) :
    e.pstat = decodeStatus s.params b ∧ e.pvalid = true := by
  simp only [pollAnswered] at h
  split at h
  · cases h
    exact ⟨rfl, rfl⟩
  · obtain ⟨_, rfl⟩ | ⟨_, _, rfl⟩ := pollReady_cases h <;> exact ⟨rfl, rfl⟩
  · cases h
    obtain ⟨_, he⟩ | ⟨_, he⟩ := pollUndecided_cases (s.recorded b) <;> rw [State.recorded] at he <;> rw [he] <;>
      exact ⟨rfl, rfl⟩

end Sys2Proof.Machine
end

section
/-! The invariant of 10_state.md rule R45 is kept by every step: it is put together from the row of R45's table for `st` and
the clauses that do not speak of `st`. -/
namespace Sys2Proof.Machine

/-! ## The invariant by the rows of R45's table -/

/-- The clauses of the invariant that do not speak of `st`, but for `abandonedAlone`, which `tick` alone decides. -/
structure State.Steady (s : State) : Prop where
  seqWf     : s.seq.wf = true
  seqBelow  : s.seq.below s.params.seqMax.toNat = true
  seqOldSub : s.seqOld.Sublist (s.seq.map Prod.fst)
  lenFits   : s.len.toNat ≤ s.params.seqMax.toNat
  resNone   : s.res.code = .none → s.res = noResult
  resPhase  : s.res.code ≠ .busError → s.res.phase = 0#1
  resFlags  : s.res.code = .deviceFault ↔ s.res.flags ≠ noFlags
  toAlone   : s.fault.timeout = true → s.fault.flags = noFlags
  status    : s.pvalid = false → s.pstat = ⟨false, false, false, false, false⟩

/-- A byte of the transfer is being worked on, and there is no result yet. -/
def State.working (s : State) : Prop := s.idx.toNat < s.len.toNat ∧ s.res = noResult

/-- The data register holds the byte being worked on (41_handshake_engine.md rule R115). -/
def State.holdsByte (s : State) : Prop := ∃ v, s.dataQ = some v ∧ s.isCurrentByte v

/-- The `cnt` column of R45 in a state that lasts `c` cycles. -/
def State.counts (s : State) (c : Count) : Prop := 1 ≤ s.cnt.toNat ∧ s.cnt.toNat ≤ c.toNat

/-- The poll count is below the bound, if there is one. -/
def State.belowBound (s : State) : Prop := s.params.maxPolls ≠ 0#16 → s.polls.toNat < s.params.maxPolls.toNat

/-- The result names an end of the transfer (10_state.md rule R33). -/
def State.namesEnd (s : State) : Prop :=
  s.res.code ≠ .none ∧ s.res.ridx = s.idx ∧ (s.res.code = .ok → s.idx = s.len) ∧
    (s.res.code ≠ .ok → s.idx.toNat < s.len.toNat)

/-- The row of R45's table for the state's `st`: what holds in that state, besides `State.Steady`. -/
inductive State.Row (s : State) : Prop
  | idle (hs : s.st = .idle) (hq : s.treq = .none) (hb : s.strobeQ = false)
  | setData (v : Byte) (hs : s.st = .setData) (hw : s.working) (hq : s.treq = .write s.params.dataAddr v)
      (hv : s.isCurrentByte v) (hb : s.strobeQ = false)
  | settle (hs : s.st = .settle) (hw : s.working) (hd : s.holdsByte) (hq : s.treq = .none) (hb : s.strobeQ = false)
      (hc : s.counts s.params.settleCycles)
  | strobe (hs : s.st = .strobe) (hw : s.working) (hd : s.holdsByte) (hq : s.treq = .none) (hb : s.strobeQ = true)
      (hc : s.counts s.params.strobeCycles)
  | release (hs : s.st = .release) (hw : s.working) (hd : s.holdsByte) (hq : s.treq = .none) (hb : s.strobeQ = false)
  | pollWait (hs : s.st = .pollWait) (hw : s.working) (hd : s.holdsByte) (hq : s.treq = .none) (hb : s.strobeQ = false)
      (hc : s.counts s.params.pollCycles) (hp : s.belowBound)
  | poll (hs : s.st = .poll) (hw : s.working) (hd : s.holdsByte) (hq : s.treq = .read s.params.statusAddr)
      (hb : s.strobeQ = false) (hp : s.belowBound)
  | faultWait (hs : s.st = .faultWait) (hw : s.working) (hd : s.holdsByte) (hq : s.treq = .none) (hb : s.strobeQ = false)
      (hf : s.fault ≠ noReasons)
  | done (hs : s.st = .done) (hq : s.treq = .none) (hb : s.strobeQ = false) (hl : s.idx.toNat ≤ s.len.toNat)
      (he : s.namesEnd)

theorem inTransfer_iff (st : EngineState) : st.inTransfer = true ↔ st ≠ .idle ∧ st ≠ .done := by
  cases st <;> decide

theorem State.Inv.steady {s : State} (h : s.Inv) : s.Steady :=
  ⟨h.seqWf, h.seqBelow, h.seqOldSub, h.lenFits, h.resNone, h.resPhase, h.resFlags, h.toAlone, h.status⟩

section
variable {s : State} {st : EngineState} (h : s.Inv) (hs : s.st = st)
include h hs

theorem State.Inv.working (ht : st.inTransfer = true) : s.working :=
  ⟨h.idxBelow (hs ▸ ht), h.resTransfer (hs ▸ ht)⟩

theorem State.Inv.holdsByte (ht : st.inTransfer = true) (hn : st ≠ .setData) : s.holdsByte :=
  h.data (hs ▸ ht) (hs ▸ hn)

theorem State.Inv.noRequest (hw : st ≠ .setData) (hr : st ≠ .poll) : s.treq = .none :=
  h.reqNone (hs ▸ hw) (hs ▸ hr)

theorem State.Inv.strobeLow (hn : st ≠ .strobe) : s.strobeQ = false := by
  rw [Bool.eq_false_iff, Ne, h.strobe, hs]
  exact hn

end

/-- Between transfers nothing is requested and the strobe is low. -/
theorem State.Inv.atRest {s : State} (h : s.Inv) (hb : s.st.betweenTransfers = true) :
    s.treq = .none ∧ s.strobeQ = false := by
  rcases (betweenTransfers_iff _).mp hb with hs | hs <;> exact ⟨h.noRequest hs nofun nofun, h.strobeLow hs nofun⟩

/-- A state that meets a row, and the clauses of no row, meets the invariant. -/
theorem inv_of_row {s : State} (hc : s.Steady) (hr : s.Row) (ha : s.treq ≠ .none → s.abandoned = .none) : s.Inv :=
  { hc with
    abandonedAlone := ha
    idxBelow := by cases hr <;> simp_all [inTransfer_iff, State.working]
    idxDone := by cases hr <;> simp_all
    reqWrite := by cases hr <;> simp_all
    reqRead := by cases hr <;> simp_all
    reqNone := by cases hr <;> simp_all
    strobe := by cases hr <;> simp_all
    cnt := by cases hr <;> simp_all [timedCycles, State.counts]
    data := by cases hr <;> simp_all [inTransfer_iff, State.holdsByte]
    polls := by cases hr <;> simp_all [State.belowBound]
    resTransfer := by cases hr <;> simp_all [inTransfer_iff, State.working]
    resDone := by cases hr <;> simp_all [State.namesEnd]
    reasons := by cases hr <;> simp_all }

/-- A cycle's end settles `abandonedAlone` itself (70_reset_and_hazards.md rule R191). -/
theorem inv_tick {s x : State} (hc : (s.tick x).Steady) (hr : (s.tick x).Row) : (s.tick x).Inv :=
  inv_of_row hc hr fun hq => if_neg hq

/-- A cycle that writes `rej`, `policy` and the inputs alone. -/
theorem inv_tick_same {s : State} (h : s.Inv) (r : Bool) (p : LinePolicy) :
    (s.tick { s with rej := r, policy := p }).Inv :=
  { h with abandonedAlone := fun hq => if_neg hq }

/-! ### The columns of R45 that need arithmetic -/

theorem one_le_count (c : Count) : 1 ≤ c.toNat :=
  Nat.one_le_iff_ne_zero.mpr fun h => c.pos (BitVec.eq_of_toNat_eq h)

/-- A timed state is entered with a full `cnt`. -/
theorem counts_full {s : State} {c : Count} (h : s.cnt = c.val) : s.counts c := by
  rw [State.counts, h]
  exact ⟨one_le_count c, le_rfl⟩

theorem cnt_pred_toNat {s : State} (h : 1#16 < s.cnt) : (s.cnt - 1#16).toNat = s.cnt.toNat - 1 :=
  BitVec.toNat_sub_of_le (Nat.le_of_lt h)

/-- The index of a byte being worked on does not wrap. -/
theorem idx_succ_toNat {s : State} (h : s.idx.toNat < s.len.toNat) : (s.idx + 1#16).toNat = s.idx.toNat + 1 := by
  have := s.len.isLt
  rw [BitVec.toNat_add]
  exact Nat.mod_eq_of_lt (by simp only [BitVec.toNat_ofNat]; omega)

theorem belowBound_of_zero {s : State} (h : s.polls = 0#16) : s.belowBound := by
  intro hm
  rw [h]
  exact Nat.pos_of_ne_zero fun h0 => hm (BitVec.eq_of_toNat_eq h0)

theorem belowBound_of_boundReached {s : State} (h : boundReached s.params s.polls = false) : s.belowBound := by
  intro hm
  simpa [boundReached, hm, BitVec.lt_def] using h

theorem reasons_ne_noReasons {f : DeviceFlags} (h : f ≠ noFlags) : f.reasons ≠ noReasons :=
  fun he => h (congrArg FaultReasons.flags he)

/-- With a reason that is no timeout, there is a flag (42_host_commands.md rule R143). -/
theorem flags_ne_noFlags {f : FaultReasons} (h : f ≠ noReasons) (ht : f.timeout = false) : f.flags ≠ noFlags := by
  obtain ⟨a, b, c, d⟩ := f
  intro he
  simp_all [FaultReasons.flags, noFlags, noReasons]

/-- `MemRead` returns the byte that is known. -/
theorem isCurrentByte_memRead (s : State) : s.isCurrentByte (s.memRead s.idx) :=
  fun _ hb => memRead_of_known hb

/-! ### The engine -/

/-- A transfer that ends at the byte being worked on, with a code of failure. -/
theorem inv_of_failure {s : State} {c : ResultCode} {p : BitVec 1} {f : DeviceFlags} (r : Bool) (h : s.Inv) (hw : s.working)
    (hb : s.strobeQ = false) (hn : c ≠ .none) (ho : c ≠ .ok) (hp : c ≠ .busError → p = 0#1)
    (hf : c = .deviceFault ↔ f ≠ noFlags) : (s.tick { s.finish c p f s.idx with rej := r }).Inv :=
  inv_tick { h.steady with resNone := fun e => absurd e hn, resPhase := hp, resFlags := hf }
    (.done rfl rfl hb hw.1.le ⟨hn, rfl, fun e => absurd e ho, fun _ => hw.1⟩)

/-- Every step of the engine keeps the invariant, whatever becomes of `rej`. -/
theorem inv_of_engine {s e : State} (r : Bool) (h : s.Inv) (he : EngineCase s e) : (s.tick { e with rej := r }).Inv := by
  cases he with
  | writeOk a v hs hq ht he =>
    subst he
    obtain ⟨w, hw, hv⟩ := h.reqWrite hs
    obtain rfl : v = w := by rw [hq] at hw; cases hw; rfl
    exact inv_tick { h.steady with }
      (.settle rfl (h.working hs rfl) ⟨v, rfl, hv⟩ rfl (h.strobeLow hs nofun) (counts_full rfl))
  | writeFailed a v hs hq ht he =>
    subst he
    exact inv_of_failure r h (h.working hs rfl) (h.strobeLow hs nofun) nofun nofun (fun e => absurd rfl e) (by decide)
  | waiting hs he =>
    subst he
    exact inv_tick_same h r e.policy
  | counting hs hc he =>
    subst he
    refine { h with abandonedAlone := fun hq => if_neg hq, cnt := fun c hd => ?_ }
    have hc' : 1 < s.cnt.toNat := hc
    have hcs := h.cnt c hd
    show 1 ≤ (s.cnt - 1#16).toNat ∧ (s.cnt - 1#16).toNat ≤ c.toNat
    rw [cnt_pred_toNat hc]
    omega
  | strobeOn hs hc he =>
    subst he
    exact inv_tick { h.steady with }
      (.strobe rfl (h.working hs rfl) (h.holdsByte hs rfl nofun) (h.noRequest hs nofun nofun) rfl (counts_full rfl))
  | strobeOff hs hc he =>
    subst he
    exact inv_tick { h.steady with }
      (.release rfl (h.working hs rfl) (h.holdsByte hs rfl nofun) (h.noRequest hs nofun nofun) rfl)
  | released hs he =>
    subst he
    exact inv_tick { h.steady with }
      (.pollWait rfl (h.working hs rfl) (h.holdsByte hs rfl nofun) (h.noRequest hs nofun nofun) (h.strobeLow hs nofun)
        (counts_full rfl) (belowBound_of_zero rfl))
  | pollIssued hs hc he =>
    subst he
    exact inv_tick { h.steady with }
      (.poll rfl (h.working hs rfl) (h.holdsByte hs rfl nofun) rfl (h.strobeLow hs nofun) (h.polls (.inl hs)))
  | pollFault a b f hs hq ht hc he =>
    subst he
    exact inv_tick { h.steady with toAlone := nofun, status := nofun }
      (.faultWait rfl (h.working hs rfl) (h.holdsByte hs rfl nofun) rfl (h.strobeLow hs nofun)
        (reasons_ne_noReasons (classify_fault_flags hc).1))
  | pollLast a b hs hq ht hc hl he =>
    subst he
    exact inv_tick
      { h.steady with
        status := nofun, resNone := nofun, resPhase := fun _ => rfl, resFlags := ⟨nofun, fun e => absurd rfl e⟩ }
      (.done rfl rfl (h.strobeLow hs nofun) (congrArg BitVec.toNat hl).le
        ⟨nofun, hl.symm, fun _ => hl, fun e => absurd rfl e⟩)
  | pollNext a b hs hq ht hc hl hf he =>
    subst he
    have hw := h.working hs rfl
    have hk := idx_succ_toNat hw.1
    have hne : (s.idx + 1#16).toNat ≠ s.len.toNat := fun e => hl (BitVec.eq_of_toNat_eq e)
    have hlt : (s.idx + 1#16).toNat < s.len.toNat := lt_of_le_of_ne (hk ▸ hw.1) hne
    exact inv_tick { h.steady with status := nofun }
      (.setData _ rfl ⟨hlt, hw.2⟩ rfl
        (isCurrentByte_memRead { s.recorded b with idx := s.idx + 1#16 }) (h.strobeLow hs nofun))
  | pollTimeout a b hs hq ht hc hb he =>
    subst he
    exact inv_tick { h.steady with toAlone := fun _ => rfl, status := nofun }
      (.faultWait rfl (h.working hs rfl) (h.holdsByte hs rfl nofun) rfl (h.strobeLow hs nofun)
        (by simp [timeoutReasons, noReasons]))
  | pollAgain a b hs hq ht hc hb he =>
    subst he
    exact inv_tick { h.steady with status := nofun }
      (.pollWait rfl (h.working hs rfl) (h.holdsByte hs rfl nofun) rfl (h.strobeLow hs nofun) (counts_full rfl)
        (belowBound_of_boundReached hb))
  | readFailed a hs hq ht he =>
    subst he
    exact inv_of_failure r h (h.working hs rfl) (h.strobeLow hs nofun) nofun nofun (fun e => absurd rfl e) (by decide)

/-! ### The commands and reset -/

/-- Every accepted command keeps the invariant. -/
theorem inv_of_command {s x : State} {i : Instr} (h : s.Inv) (hx : CommandCase s x i) : (s.tick x).Inv := by
  cases hx with
  | sendEmpty hb he =>
    subst he
    obtain ⟨hq, hb⟩ := h.atRest hb
    exact inv_tick
      { h.steady with
        lenFits := Nat.zero_le _, resNone := nofun, resPhase := fun _ => rfl, toAlone := nofun
        resFlags := ⟨nofun, fun e => absurd rfl e⟩ }
      (.done rfl hq hb le_rfl ⟨nofun, rfl, fun _ => rfl, fun e => absurd rfl e⟩)
  | sendBytes n hb hl hn he =>
    subst he
    have hp : 0 < n.toNat := Nat.pos_of_ne_zero fun e => hn (BitVec.eq_of_toNat_eq e)
    exact inv_tick
      { h.steady with
        lenFits := (lengthFits_iff _ _).mp hl, resNone := fun _ => rfl, resPhase := fun _ => rfl, toAlone := nofun
        resFlags := ⟨nofun, fun e => absurd rfl e⟩ }
      (.setData _ rfl ⟨hp, rfl⟩ rfl (isCurrentByte_memRead { s.loadTransfer n with res := noResult }) (h.atRest hb).2)
  | retry hs he =>
    subst he
    exact inv_tick { h.steady with }
      (.pollWait rfl (h.working hs rfl) (h.holdsByte hs rfl nofun) (h.noRequest hs nofun nofun) (h.strobeLow hs nofun)
        (counts_full rfl) (belowBound_of_zero rfl))
  | abortTimeout hs hf he =>
    subst he
    exact inv_of_failure s.rej h (h.working hs rfl) (h.strobeLow hs nofun) nofun nofun (fun _ => rfl) (by decide)
  | abortFault hs hf he =>
    subst he
    exact inv_of_failure s.rej h (h.working hs rfl) (h.strobeLow hs nofun) nofun nofun (fun _ => rfl)
      (iff_of_true rfl (flags_ne_noFlags (h.reasons hs) hf))
  | setle pol p hp hb he =>
    subst he
    exact inv_tick_same h s.rej p
  | ack hb he =>
    subst he
    obtain ⟨hq, hb⟩ := h.atRest hb
    exact inv_tick { h.steady with } (.idle rfl hq hb)
  | wrbuf a v hb hl he =>
    subst he
    obtain ⟨hq, hr⟩ := h.atRest hb
    have hc : (s.tick (s.memWrite a v)).Steady :=
      { h.steady with
        seqWf := memWrite_seq_wf a v h.seqWf
        seqBelow := Memory.below_write v h.seqBelow ((indexFits_iff _ _).mp hl)
        seqOldSub := memWrite_seqOld_sublist h.seqOldSub a v }
    rcases (betweenTransfers_iff _).mp hb with hs | hs
    · exact inv_tick hc (.idle hs hq hr)
    · exact inv_tick hc (.done hs hq hr (h.idxDone hs) (h.resDone hs))

/-- Every step keeps the invariant. -/
theorem inv_of_step {s t : State} (h : s.Inv) (hst : step s = .next t) : t.Inv := by
  cases step_cause hst with
  | reset hr ht =>
    subst ht
    exact inv_tick
      { h.steady with
        seqOldSub := .refl _, lenFits := Nat.zero_le _, resNone := fun _ => rfl, resPhase := fun _ => rfl, toAlone := nofun
        resFlags := ⟨nofun, fun e => absurd rfl e⟩, status := fun _ => rfl }
      (.idle rfl rfl rfl)
  | waits r hr hi ht =>
    subst ht
    exact inv_tick_same h r s.policy
  | command i x hr hi hw ha hc ht =>
    subst ht
    exact inv_of_command h hc
  | engine e r hr hi he hc ht =>
    subst ht
    exact inv_of_engine r h hc

/-- Settles O55: each command, each step of the engine and reset lead from the invariant to a row of R45's table. -/
theorem stepKeepsInvariant : Obligations.StepKeepsInvariant := fun _ _ => inv_of_step

/-- Settles O54: the state after reset meets the row of IDLE. -/
theorem resetMeetsTheInvariant : Obligations.ResetMeetsTheInvariant :=
  inv_of_row
    { seqWf := reset_seq_wf, seqBelow := rfl, seqOldSub := .refl _, lenFits := Nat.zero_le _, resNone := fun _ => rfl
      resPhase := fun _ => rfl, resFlags := ⟨nofun, fun e => absurd rfl e⟩, toAlone := nofun, status := fun _ => rfl }
    (.idle rfl rfl rfl) fun _ => rfl

end Sys2Proof.Machine
end

section
/-! The strobed bytes of 10_state.md rule R44 are exact at every step. -/
namespace Sys2Proof.Machine

/-! ## The engine's step and a READY poll -/

/-- Where the engine moves, no SEND is accepted. -/
theorem startsTransfer_of_active {s : State} (hi : s.st.inert = false) : s.startsTransfer = false := by
  rw [Bool.eq_false_iff, Ne, startsTransfer_iff]
  rintro ⟨n, _, ha⟩
  rw [inert_of_accepted ha nofun] at hi
  cases hi

theorem seesReady_of_not_poll {s : State} (hs : s.st ≠ .poll) : s.seesReady = false := by
  rw [Bool.eq_false_iff, Ne, seesReady_iff]
  rintro ⟨_, hp, _⟩
  exact hs hp

/-- The engine's step of a READY poll: the last byte's, or the next byte's begin (41_handshake_engine.md rule R122). -/
theorem engineStep_of_seesReady {s e : State} (hq : s.seesReady = true) (he : engineStep s = .next e) :
    s.st = .poll ∧ ∃ b,
      (s.idx + 1#16 = s.len ∧ e = { s.recorded b with idx := s.idx + 1#16 }.finish .ok 0#1 noFlags s.len) ∨
      (s.idx + 1#16 ≠ s.len ∧ e = { s.recorded b with idx := s.idx + 1#16 }.beginByte (s.idx + 1#16)) := by
  obtain ⟨_, hs, ha, b, ht, hc⟩ := (seesReady_iff s).mp hq
  simp only [engineStep, hs, stepPoll, ha, ht, pollAnswered, hc] at he
  obtain h | ⟨hl, _, h⟩ := pollReady_cases he
  · exact ⟨hs, b, .inl h⟩
  · exact ⟨hs, b, .inr ⟨hl, h⟩⟩

/-- A step of the engine that is no READY poll keeps the index. -/
theorem EngineCase.idx_eq {s e : State} (he : EngineCase s e) (h : s.Inv) (hr : s.pins.rst = false)
    (hq : s.seesReady = false) : e.idx = s.idx := by
  have hn : ∀ {b}, s.st = .poll → s.tresp = .okByte b → classify s.params (decodeStatus s.params b) = .ready → False :=
    fun hs ht hc => Bool.eq_false_iff.mp hq ((seesReady_iff s).mpr ⟨hr, hs, h.reqRead hs, _, ht, hc⟩)
  cases he with
  | pollLast a b hs _ ht hc => exact (hn hs ht hc).elim
  | pollNext a b hs _ ht hc => exact (hn hs ht hc).elim
  | _ => subst e; rfl

/-! ## The strobed bytes (10_state.md rule R44) -/

/-- A traced state is exact if its lists are those of the count of its state. -/
theorem exact_of_lists {t : Traced} {n : Nat} (hn : t.state.strobedCount = some n) (hs : t.strobed = List.range n)
    (hd : t.readied = List.range t.state.idx.toNat) : t.exact :=
  fun _ => ⟨n, hn, hs, hd⟩

section
variable {t : Traced} {s' : State} (hr : t.state.pins.rst = false) (hstart : t.state.startsTransfer = false)
include hr hstart

/-- A cycle that enters no STROBE and sees no READY poll keeps the lists. -/
theorem next_of_neither (hq : t.state.seesReady = false) (hb : s'.st = .strobe → t.state.st = .strobe) :
    t.next s' = ⟨s', t.strobed, t.readied⟩ := by
  have hb : ¬ (s'.st = .strobe ∧ t.state.st ≠ .strobe) := fun h => h.2 (hb h.1)
  simp only [Traced.next, hr, hstart, hq, if_neg hb, Bool.or_self, Bool.false_eq_true, if_false]

/-- The entry into STROBE appends the byte being worked on to the strobed ones. -/
theorem next_of_strobe (hq : t.state.seesReady = false) (hb : s'.st = .strobe) (hs : t.state.st ≠ .strobe) :
    t.next s' = ⟨s', t.strobed ++ [t.state.idx.toNat], t.readied⟩ := by
  simp [Traced.next, hr, hstart, hq, hb, hs]

/-- A READY poll appends the byte being worked on to the ones polled READY. -/
theorem next_of_ready (hq : t.state.seesReady = true) (hb : s'.st ≠ .strobe) :
    t.next s' = ⟨s', t.strobed, t.readied ++ [t.state.idx.toNat]⟩ := by
  simp [Traced.next, hr, hstart, hq, hb]

/-- A cycle that keeps the lists, the index and the count keeps the lists exact. -/
theorem exact_kept (hx : t.exact) (h0 : t.state.st ≠ .idle) (hq : t.state.seesReady = false)
    (hb : s'.st = .strobe → t.state.st = .strobe) (hi : s'.idx = t.state.idx)
    (hn : s'.strobedCount = t.state.strobedCount) : (t.next s').exact := by
  obtain ⟨n, hc, hs, hd⟩ := hx h0
  rw [next_of_neither hr hstart hq hb]
  exact exact_of_lists (hn.trans hc) hs (by rw [hd, ← hi])

end

/-- A step of the engine that keeps the index enters STROBE from SETTLE, or keeps how many bytes are strobed. -/
theorem EngineCase.strobedCount_eq {s e : State} (r : Bool) (he : EngineCase s e) (hi : e.idx = s.idx) :
    (s.st = .settle ∧ e = s.enterStrobe) ∨
    ((e.st = .strobe → s.st = .strobe) ∧ (s.tick { e with rej := r }).strobedCount = s.strobedCount) := by
  cases he with
  | strobeOn hs hc he => exact .inl ⟨hs, he⟩
  | counting hs hc he => subst he; exact .inr ⟨id, rfl⟩
  | waiting hs he => subst he; exact .inr ⟨id, rfl⟩
  | _ => right; subst e; simp_all [State.strobedCount]

theorem exact_of_idle {t : Traced} (hs : t.state.st = .idle) : t.exact := fun h => absurd hs h

theorem exact_of_engine {t : Traced} {e : State} (r : Bool) (h : t.state.Inv) (hx : t.exact) (hr : t.state.pins.rst = false)
    (hi : t.state.st.inert = false) (he : engineStep t.state = .next e) :
    (t.next (t.state.tick { e with rej := r })).exact := by
  have hstart := startsTransfer_of_active hi
  have h0 : t.state.st ≠ .idle := fun hs => by rw [hs] at hi; cases hi
  obtain ⟨n, hn, hl, hd⟩ := hx h0
  cases hq : t.state.seesReady with
  | true =>
    obtain ⟨hs, b, hb⟩ := engineStep_of_seesReady hq he
    have hk := idx_succ_toNat (h.working hs rfl).1
    have hn' : t.state.idx.toNat + 1 = n := by simpa [State.strobedCount, hs] using hn
    have hd' : t.readied ++ [t.state.idx.toNat] = List.range (t.state.idx + 1#16).toNat := by rw [hk, List.range_succ, hd]
    obtain ⟨hlast, rfl⟩ | ⟨_, rfl⟩ := hb <;> rw [next_of_ready hr hstart hq (by simp)]
    · exact exact_of_lists (congrArg some ((congrArg BitVec.toNat hlast.symm).trans (hk.trans hn'))) hl hd'
    · exact exact_of_lists (congrArg some (hk.trans hn')) hl hd'
  | false =>
    have hc := engineStep_cases hi he
    have hidx := hc.idx_eq h hr hq
    obtain ⟨hs, rfl⟩ | ⟨hb, hsame⟩ := hc.strobedCount_eq r hidx
    · have hn' : t.state.idx.toNat = n := by simpa [State.strobedCount, hs] using hn
      rw [next_of_strobe hr hstart hq rfl (hs ▸ nofun)]
      exact exact_of_lists (n := n + 1) (congrArg (some <| · + 1) hn') (by rw [hl, hn', List.range_succ]) hd
    · exact exact_kept hr hstart hx h0 hq hb hidx hsame

/-- An accepted SEND starts the lists anew. -/
theorem exact_of_send {t : Traced} {s' : State} (hstart : t.state.startsTransfer = true) (hst : step t.state = .next s') :
    (t.next s').exact := by
  obtain ⟨n, hw, ha⟩ := (startsTransfer_iff _).mp hstart
  have hn : Instr.send n ≠ .nop := nofun
  have hx := exec_eq_commandState (.send n) t.state
  have hnext : t.next s' = ⟨s', [], []⟩ := by simp [Traced.next, hstart]
  rw [step_command hn hw ha hx] at hst
  cases hst
  rw [hnext]
  cases command_cases hn ha hx with
  | sendEmpty hb he => exact exact_of_lists (n := 0) (by rw [he]; rfl) rfl (by rw [he]; rfl)
  | sendBytes _ hb hl h0 he => exact exact_of_lists (n := 0) (by rw [he]; rfl) rfl (by rw [he]; rfl)

/-- In an inert state, a cycle that is no SEND and keeps `st`, `idx` and `res` keeps the lists exact. -/
theorem exact_of_inert {t : Traced} {s' : State} (hx : t.exact) (hr : t.state.pins.rst = false)
    (hstart : t.state.startsTransfer = false) (hi : t.state.st.inert = true) (hs : s'.st = t.state.st)
    (hidx : s'.idx = t.state.idx) (hres : s'.res = t.state.res) : (t.next s').exact := by
  by_cases h0 : t.state.st = .idle
  · exact exact_of_idle (hs.trans h0)
  · have hq : t.state.seesReady = false := seesReady_of_not_poll fun e => by rw [e] at hi; cases hi
    exact exact_kept hr hstart hx h0 hq (fun e => hs ▸ e) hidx (by simp only [State.strobedCount, hs, hidx, hres])

theorem exact_of_command {t : Traced} {x : State} {i : Instr} (hx : t.exact) (hr : t.state.pins.rst = false)
    (hstart : t.state.startsTransfer = false) (hi : t.state.st.inert = true) (hn : ∀ n, i ≠ .send n)
    (hc : CommandCase t.state x i) : (t.next (t.state.tick x)).exact := by
  have hq : t.state.seesReady = false := seesReady_of_not_poll fun e => by rw [e] at hi; cases hi
  cases hc with
  | sendEmpty hb he => exact absurd rfl (hn _)
  | sendBytes n hb hl h0 he => exact absurd rfl (hn _)
  | retry hs he =>
    subst he
    exact exact_kept hr hstart hx (hs ▸ nofun) hq nofun rfl (by simp [State.strobedCount, hs])
  | abortTimeout hs hf he =>
    subst he
    exact exact_kept hr hstart hx (hs ▸ nofun) hq nofun rfl (by simp [State.strobedCount, hs])
  | abortFault hs hf he =>
    subst he
    exact exact_kept hr hstart hx (hs ▸ nofun) hq nofun rfl (by simp [State.strobedCount, hs])
  | setle pol p hp hb he =>
    subst he
    exact exact_of_inert hx hr hstart hi rfl rfl rfl
  | ack hb he =>
    subst he
    exact exact_of_idle rfl
  | wrbuf a v hb hl he =>
    subst he
    exact exact_of_inert hx hr hstart hi rfl rfl rfl

/-- Every step keeps the strobed bytes exact. -/
theorem exact_of_step {t : Traced} {s' : State} (h : t.state.Inv) (hx : t.exact) (hst : step t.state = .next s') :
    (t.next s').exact := by
  cases hstart : t.state.startsTransfer with
  | true => exact exact_of_send hstart hst
  | false =>
    cases step_cause hst with
    | reset hr ht =>
      subst ht
      exact exact_of_idle rfl
    | waits r hr hi ht =>
      subst ht
      exact exact_of_inert hx hr hstart hi rfl rfl rfl
    | command i x hr hi hw ha hc ht =>
      subst ht
      refine exact_of_command hx hr hstart hi ?_ hc
      rintro n rfl
      exact Bool.eq_false_iff.mp hstart ((startsTransfer_iff _).mpr ⟨n, hw, ha⟩)
    | engine e r hr hi he hc ht =>
      subst ht
      exact exact_of_engine r h hx hr hi he

/-- Settles O57: a step keeps the lists exact, and after reset R44 says nothing of them. -/
theorem strobedBytesExact : Obligations.StrobedBytesExact :=
  ⟨fun _ h hx _ => exact_of_step h hx, exact_of_idle rfl⟩

end Sys2Proof.Machine
end

section
/-! Who writes which element (10_state.md): one lemma for the commands, one for the engine, one for the step. -/
namespace Sys2Proof.Machine

/-! ## Who writes what: idx -/

theorem CommandCase.idx_cases {s x : State} {i : Instr} (hc : CommandCase s x i) :
    x.idx = s.idx ∨ ∃ n, i = .send n ∧ x.idx = 0#16 := by
  cases hc with
  | sendEmpty hb he => subst he; exact .inr ⟨_, rfl, rfl⟩
  | sendBytes n hb hl h0 he => subst he; exact .inr ⟨n, rfl, rfl⟩
  | _ => subst x; exact .inl rfl

/-- Settles O43: a reset, a SEND, or a READY poll, whose index does not wrap since it is below `len`. -/
theorem indexWriters : Obligations.IndexWriters := by
  intro s t h hst hne
  cases step_cause hst with
  | reset hr ht =>
    subst ht
    exact .inl ⟨hr, rfl⟩
  | waits r hr hi ht =>
    subst ht
    exact absurd rfl hne
  | command i x hr hi hw ha hc ht =>
    subst ht
    obtain he | ⟨n, rfl, he⟩ := hc.idx_cases
    · exact absurd he hne
    · exact .inr (.inl ⟨(startsTransfer_iff s).mpr ⟨n, hw, ha⟩, he⟩)
  | engine e r hr hi he hc ht =>
    subst ht
    cases hq : s.seesReady with
    | false => exact absurd (hc.idx_eq h hr hq) hne
    | true =>
      obtain ⟨hs, b, ⟨_, rfl⟩ | ⟨_, rfl⟩⟩ := engineStep_of_seesReady hq he
      all_goals exact .inr (.inr ⟨rfl, idx_succ_toNat (h.working hs rfl).1⟩)

/-! ## Who writes what: len, policy and SEQ -/

theorem CommandCase.len_cases {s x : State} {i : Instr} (hc : CommandCase s x i) :
    x.len = s.len ∨ ∃ n, i = .send n ∧ x.len = n := by
  cases hc with
  | sendEmpty hb he => subst he; exact .inr ⟨_, rfl, rfl⟩
  | sendBytes n hb hl h0 he => subst he; exact .inr ⟨n, rfl, rfl⟩
  | _ => subst x; exact .inl rfl

theorem code_of_ofBits {pol : BitVec 2} {p : LinePolicy} (h : LinePolicy.ofBits pol = some p) : p.code = pol := by
  revert p
  revert pol
  decide

theorem CommandCase.policy_cases {s x : State} {i : Instr} (hc : CommandCase s x i) :
    x.policy = s.policy ∨ ∃ pol, i = .setle pol ∧ x.policy.code = pol := by
  cases hc with
  | setle pol p hp hb he => subst he; exact .inr ⟨pol, rfl, code_of_ofBits hp⟩
  | _ => subst x; exact .inl rfl

/-- What SEQ holds and is known to hold. -/
structure SeqKept (s t : State) : Prop where
  seq    : t.seq = s.seq
  seqOld : t.seqOld = s.seqOld

theorem CommandCase.seq_cases {s x : State} {i : Instr} (hc : CommandCase s x i) :
    SeqKept s x ∨ ∃ a v, i = .wrbuf a v ∧ x = s.memWrite a v := by
  cases hc with
  | wrbuf a v hb hl he => exact .inr ⟨a, v, rfl, he⟩
  | _ => subst x; exact .inl ⟨rfl, rfl⟩

theorem CommandCase.seqKept_eq {s x : State} {i : Instr} (hc : CommandCase s x i) : x.seqKept = s.seqKept := by
  cases hc <;> subst x <;> rfl

theorem step_seqKept {s t : State} (hst : step s = .next t) : t.seqKept = s.seqKept := by
  cases step_cause hst with
  | reset hr ht => subst ht; rfl
  | waits r hr hi ht => subst ht; rfl
  | command i x hr hi hw ha hc ht => subst ht; exact hc.seqKept_eq
  | engine e r hr hi he hc ht => subst ht; exact (engineStep_keeps he).seqKept

theorem step_len_cases {s t : State} (hst : step s = .next t) :
    t.len = s.len ∨ s.pins.rst = true ∨ ∃ n, s.issues (.send n) ∧ acceptedIn s (.send n) ∧ t.len = n := by
  cases step_cause hst with
  | reset hr ht => exact .inr (.inl hr)
  | waits r hr hi ht => subst ht; exact .inl rfl
  | command i x hr hi hw ha hc ht =>
    subst ht
    obtain he | ⟨n, rfl, he⟩ := hc.len_cases
    · exact .inl he
    · exact .inr (.inr ⟨n, hw, ha, he⟩)
  | engine e r hr hi he hc ht => subst ht; exact .inl (engineStep_keeps he).len

theorem step_policy_cases {s t : State} (hst : step s = .next t) :
    t.policy = s.policy ∨ s.pins.rst = true ∨
      ∃ pol, s.issues (.setle pol) ∧ acceptedIn s (.setle pol) ∧ t.policy.code = pol := by
  cases step_cause hst with
  | reset hr ht => exact .inr (.inl hr)
  | waits r hr hi ht => subst ht; exact .inl rfl
  | command i x hr hi hw ha hc ht =>
    subst ht
    obtain he | ⟨pol, rfl, he⟩ := hc.policy_cases
    · exact .inl he
    · exact .inr (.inr ⟨pol, hw, ha, he⟩)
  | engine e r hr hi he hc ht => subst ht; exact .inl (engineStep_keeps he).policy

/-- SEQ after a step: kept, kept by a reset that makes every written byte old, or written by a WRBUF. -/
theorem step_seq_cases {s t : State} (hst : step s = .next t) :
    SeqKept s t ∨ (s.pins.rst = true ∧ t = s.tick s.resetElements) ∨
      ∃ a v, s.issues (.wrbuf a v) ∧ acceptedIn s (.wrbuf a v) ∧ t = s.tick (s.memWrite a v) := by
  cases step_cause hst with
  | reset hr ht => exact .inr (.inl ⟨hr, ht⟩)
  | waits r hr hi ht => subst ht; exact .inl ⟨rfl, rfl⟩
  | command i x hr hi hw ha hc ht =>
    subst ht
    obtain he | ⟨a, v, rfl, rfl⟩ := hc.seq_cases
    · exact .inl ⟨he.seq, he.seqOld⟩
    · exact .inr (.inr ⟨a, v, hw, ha, rfl⟩)
  | engine e r hr hi he hc ht => subst ht; exact .inl ⟨(engineStep_keeps he).seq, (engineStep_keeps he).seqOld⟩

theorem step_lookup_cases {s t : State} (hst : step s = .next t) (j : Nat) :
    t.seq.lookup j = s.seq.lookup j ∨
      ∃ a v, s.issues (.wrbuf a v) ∧ acceptedIn s (.wrbuf a v) ∧ j = a.toNat ∧ t.seq.lookup j = some v := by
  obtain hk | ⟨_, rfl⟩ | ⟨a, v, hw, ha, rfl⟩ := step_seq_cases hst
  · exact .inl (by rw [hk.seq])
  · exact .inl rfl
  · rw [State.tick_seq, State.memWrite_seq, Memory.lookup_write]
    split
    · exact .inr ⟨a, v, hw, ha, ‹_›, rfl⟩
    · exact .inl rfl

theorem step_known_cases {s t : State} (hst : step s = .next t) (j : Nat) :
    t.known j = s.known j ∨ s.pins.rst = true ∨
      ∃ a v, s.issues (.wrbuf a v) ∧ acceptedIn s (.wrbuf a v) ∧ j = a.toNat ∧ t.known j = some v := by
  obtain hk | ⟨hr, _⟩ | ⟨a, v, hw, ha, rfl⟩ := step_seq_cases hst
  · exact .inl (known_congr hk.seq hk.seqOld (step_seqKept hst) j)
  · exact .inr (.inl hr)
  · rw [State.tick_known, known_memWrite]
    split
    · exact .inr (.inr ⟨a, v, hw, ha, ‹_›, rfl⟩)
    · exact .inl rfl

theorem step_reset_known {s t : State} (hst : step s = .next t) (hr : s.pins.rst = true) (j : Nat) :
    t.known j = if s.seqKept = true then s.seq.lookup j else none := by
  rw [step_reset hr] at hst
  cases hst
  exact known_resetElements s j

/-- Settles O44: each of the elements is kept unless its own command, or a reset, writes it. -/
theorem lengthPolicyAndBufferWriters : Obligations.LengthPolicyAndBufferWriters := fun _ _ hst =>
  ⟨(step_len_cases hst).resolve_left, (step_policy_cases hst).resolve_left, fun j => (step_lookup_cases hst j).resolve_left,
    fun j => (step_known_cases hst j).resolve_left, step_reset_known hst, step_seqKept hst⟩

/-! ## Who writes what: rej -/

theorem CommandCase.rej_cases {s x : State} {i : Instr} (hc : CommandCase s x i) :
    x.rej = s.rej ∨ (i = .ack ∧ x.rej = false) := by
  cases hc with
  | ack hb he => subst he; exact .inr ⟨rfl, rfl⟩
  | _ => subst x; exact .inl rfl

/-- `rej` after a step: 1 by a rejection, kept, or 0 by a reset or an accepted ACK. -/
theorem step_rej_cases {s t : State} (hst : step s = .next t) :
    (s.rejects ∧ t.rej = true) ∨
    (¬ s.rejects ∧ (t.rej = s.rej ∨ (t.rej = false ∧ (s.pins.rst = true ∨ s.issues .ack ∧ acceptedIn s .ack)))) := by
  cases step_what hst with
  | reset hr ht =>
    subst ht
    refine .inr ⟨fun hj => ?_, .inr ⟨rfl, .inl hr⟩⟩
    exact Bool.eq_false_iff.mp hj.1 hr
  | quiet hr hi hj ht =>
    subst ht
    exact .inr ⟨hj, .inl rfl⟩
  | rejected hr hi hj ht =>
    subst ht
    exact .inl ⟨hj, rfl⟩
  | command i x hr hi hn hw ha hx hj ht =>
    subst ht
    obtain he | ⟨rfl, he⟩ := (command_cases hn ha hx).rej_cases
    · exact .inr ⟨hj, .inl he⟩
    · exact .inr ⟨hj, .inr ⟨he, .inr ⟨hw, ha⟩⟩⟩
  | engine e r hr hi he hj ht =>
    subst ht
    obtain ⟨rfl, hj⟩ | ⟨rfl, hj⟩ := hj
    · exact .inr ⟨hj, .inl rfl⟩
    · exact .inl ⟨hj, rfl⟩

/-- Settles O46: the three ways `rej` comes out of a step exclude each other. -/
theorem rejWriters : Obligations.RejWriters := by
  intro s t hst
  obtain ⟨hj, ht⟩ | ⟨hj, ht | ⟨ht, hw⟩⟩ := step_rej_cases hst
  · exact ⟨fun _ => ht, fun _ _ => hj, fun _ h0 => absurd (ht.symm.trans h0) nofun⟩
  · exact ⟨fun h => absurd h hj, fun h0 h1 => absurd (h1.symm.trans (ht.trans h0)) nofun,
      fun h1 h0 => absurd (h0.symm.trans (ht.trans h1)) nofun⟩
  · exact ⟨fun h => absurd h hj, fun _ h1 => absurd (h1.symm.trans ht) nofun, fun _ _ => hw⟩

/-! ## Who writes what: data_q and pstat -/

/-- The data register and the recorded status are kept. -/
structure MonitorKept (s t : State) : Prop where
  dataQ  : t.dataQ = s.dataQ
  pstat  : t.pstat = s.pstat
  pvalid : t.pvalid = s.pvalid

theorem CommandCase.monitorKept {s x : State} {i : Instr} (hc : CommandCase s x i) : MonitorKept s x := by
  cases hc <;> subst x <;> exact ⟨rfl, rfl, rfl⟩

/-- Only the engine writes them, but for reset. -/
theorem step_monitor_cases {s t : State} (hst : step s = .next t) :
    s.pins.rst = true ∨ (s.st.inert = true ∧ MonitorKept s t) ∨
      ∃ e r, engineStep s = .next e ∧ EngineCase s e ∧ t = s.tick { e with rej := r } := by
  cases step_cause hst with
  | reset hr ht => exact .inl hr
  | waits r hr hi ht => subst ht; exact .inr (.inl ⟨hi, rfl, rfl, rfl⟩)
  | command i x hr hi hw ha hc ht =>
    obtain ⟨hd, hp, hv⟩ := hc.monitorKept
    subst ht
    exact .inr (.inl ⟨hi, hd, hp, hv⟩)
  | engine e r hr hi he hc ht => exact .inr (.inr ⟨e, r, he, hc, ht⟩)

theorem EngineCase.dataQ_cases {s e : State} (hc : EngineCase s e) :
    e.dataQ = s.dataQ ∨ (s.st = .setData ∧ s.tresp = .ok ∧ ∃ a v, s.treq = .write a v ∧ e.dataQ = some v) := by
  cases hc with
  | writeOk a v hs hq ht he => subst he; exact .inr ⟨hs, ht, a, v, hq, rfl⟩
  | _ => subst e; exact .inl rfl

theorem EngineCase.status_cases {s e : State} (hc : EngineCase s e) :
    (e.pstat = s.pstat ∧ e.pvalid = s.pvalid) ∨ (s.st = .poll ∧ ∃ b, s.tresp = .okByte b) := by
  cases hc with
  | pollFault a b f hs hq ht hc he => exact .inr ⟨hs, b, ht⟩
  | pollLast a b hs hq ht hc hl he => exact .inr ⟨hs, b, ht⟩
  | pollNext a b hs hq ht hc hl hf he => exact .inr ⟨hs, b, ht⟩
  | pollTimeout a b hs hq ht hc hb he => exact .inr ⟨hs, b, ht⟩
  | pollAgain a b hs hq ht hc hb he => exact .inr ⟨hs, b, ht⟩
  | _ => subst e; exact .inl ⟨rfl, rfl⟩

theorem step_dataQ_cases {s t : State} (h : s.Inv) (hst : step s = .next t) :
    t.dataQ = s.dataQ ∨ s.pins.rst = true ∨
      (s.st = .setData ∧ s.tresp = .ok ∧ ∃ v, s.treq = .write s.params.dataAddr v ∧ t.dataQ = some v) := by
  obtain hr | ⟨_, hk⟩ | ⟨e, r, _, hc, rfl⟩ := step_monitor_cases hst
  · exact .inr (.inl hr)
  · exact .inl hk.dataQ
  · obtain he | ⟨hs, ht, a, v, hq, he⟩ := hc.dataQ_cases
    · exact .inl he
    · obtain ⟨w, hw, _⟩ := h.reqWrite hs
      rw [hq] at hw
      cases hw
      exact .inr (.inr ⟨hs, ht, v, hq, he⟩)

theorem step_status_cases {s t : State} (hst : step s = .next t) :
    (t.pstat = s.pstat ∧ t.pvalid = s.pvalid) ∨ s.pins.rst = true ∨ (s.st = .poll ∧ ∃ b, s.tresp = .okByte b) := by
  obtain hr | ⟨_, hk⟩ | ⟨e, r, _, hc, rfl⟩ := step_monitor_cases hst
  · exact .inr (.inl hr)
  · exact .inl ⟨hk.pstat, hk.pvalid⟩
  · exact hc.status_cases.imp_right .inr

/-- An answered poll replaces the status. -/
theorem step_of_answered_poll {s t : State} {a : Nat} {b : Byte} (hst : step s = .next t) (hs : s.st = .poll)
    (hr : s.pins.rst = false) (hq : s.treq = .read a) (ht : s.tresp = .okByte b) :
    t.pstat = decodeStatus s.params b ∧ t.pvalid = true := by
  obtain h | ⟨h, _⟩ | ⟨e, r, he, _, rfl⟩ := step_monitor_cases hst
  · rw [hr] at h
    cases h
  · rw [hs] at h
    cases h
  · simp only [engineStep, hs, stepPoll, hq, ht] at he
    obtain ⟨hp, hv⟩ := pollAnswered_status he
    exact ⟨hp, hv⟩

/-- Settles O47: only the engine moves `data_q` and `pstat`; the strobe is the column of R45 that every step keeps. -/
theorem dataAndStatusWriters : Obligations.DataAndStatusWriters := fun _ _ h hst =>
  ⟨(step_dataQ_cases h hst).resolve_left,
    fun hs hr _ ht => step_of_answered_poll hst hs hr (h.reqRead hs) ht,
    fun hne => (step_status_cases hst).resolve_left fun hk => hne.elim (absurd hk.1) (absurd hk.2),
    (inv_of_step h hst).strobe⟩

/-! ## Who writes what: fault and res -/

theorem CommandCase.fault_cases {s x : State} {i : Instr} (hc : CommandCase s x i) :
    x.fault = s.fault ∨ ∃ n, i = .send n ∧ x.fault = noReasons := by
  cases hc with
  | sendEmpty hb he => subst he; exact .inr ⟨_, rfl, rfl⟩
  | sendBytes n hb hl h0 he => subst he; exact .inr ⟨n, rfl, rfl⟩
  | _ => subst x; exact .inl rfl

theorem EngineCase.fault_cases {s e : State} (hc : EngineCase s e) :
    e.fault = s.fault ∨ (s.st = .poll ∧ e.st = .faultWait) := by
  cases hc with
  | pollFault a b f hs hq ht hc he => subst he; exact .inr ⟨hs, rfl⟩
  | pollTimeout a b hs hq ht hc hb he => subst he; exact .inr ⟨hs, rfl⟩
  | _ => subst e; exact .inl rfl

theorem step_fault_cases {s t : State} (hst : step s = .next t) :
    t.fault = s.fault ∨ (s.st = .poll ∧ t.st = .faultWait) ∨
      ((s.pins.rst = true ∨ s.startsTransfer = true) ∧ t.fault = noReasons) := by
  cases step_cause hst with
  | reset hr ht => subst ht; exact .inr (.inr ⟨.inl hr, rfl⟩)
  | waits r hr hi ht => subst ht; exact .inl rfl
  | command i x hr hi hw ha hc ht =>
    subst ht
    obtain he | ⟨n, rfl, he⟩ := hc.fault_cases
    · exact .inl he
    · exact .inr (.inr ⟨.inr ((startsTransfer_iff s).mpr ⟨n, hw, ha⟩), he⟩)
  | engine e r hr hi he hc ht => subst ht; exact hc.fault_cases.imp_right .inl

/-- The result an accepted SEND leaves (42_host_commands.md rule R141). -/
def sendResult (n : Half) : Result := ⟨if n = 0#16 then .ok else .none, 0#1, noFlags, 0#16⟩

theorem CommandCase.res_cases {s x : State} {i : Instr} (hc : CommandCase s x i) :
    x.res = s.res ∨ (s.st ≠ .done ∧ x.st = .done) ∨ ∃ n, i = .send n ∧ x.res = sendResult n := by
  cases hc with
  | sendEmpty hb he => subst he; exact .inr (.inr ⟨_, rfl, rfl⟩)
  | sendBytes n hb hl h0 he => subst he; exact .inr (.inr ⟨n, rfl, by simp [sendResult, h0, noResult]⟩)
  | abortTimeout hs hf he => subst he; exact .inr (.inl ⟨hs ▸ nofun, rfl⟩)
  | abortFault hs hf he => subst he; exact .inr (.inl ⟨hs ▸ nofun, rfl⟩)
  | _ => subst x; exact .inl rfl

theorem EngineCase.res_cases {s e : State} (hc : EngineCase s e) : e.res = s.res ∨ (s.st ≠ .done ∧ e.st = .done) := by
  cases hc with
  | writeFailed a v hs hq ht he => subst he; exact .inr ⟨hs ▸ nofun, rfl⟩
  | readFailed a hs hq ht he => subst he; exact .inr ⟨hs ▸ nofun, rfl⟩
  | pollLast a b hs hq ht hc hl he => subst he; exact .inr ⟨hs ▸ nofun, rfl⟩
  | _ => subst e; exact .inl rfl

theorem step_res_cases {s t : State} (hst : step s = .next t) :
    t.res = s.res ∨ (s.st ≠ .done ∧ t.st = .done) ∨
      (∃ n, s.issues (.send n) ∧ acceptedIn s (.send n) ∧ t.res = sendResult n) ∨
      (s.pins.rst = true ∧ t.res = noResult) := by
  cases step_cause hst with
  | reset hr ht => subst ht; exact .inr (.inr (.inr ⟨hr, rfl⟩))
  | waits r hr hi ht => subst ht; exact .inl rfl
  | command i x hr hi hw ha hc ht =>
    subst ht
    obtain he | he | ⟨n, rfl, he⟩ := hc.res_cases
    · exact .inl he
    · exact .inr (.inl he)
    · exact .inr (.inr (.inl ⟨n, hw, ha, he⟩))
  | engine e r hr hi he hc ht => subst ht; exact hc.res_cases.imp_right .inl

/-- Settles O48: `fault` and `res` are kept but by an entry into FAULT_WAIT or DONE, a SEND or a reset. -/
theorem faultAndResultWriters : Obligations.FaultAndResultWriters := fun _ _ hst =>
  ⟨(step_fault_cases hst).resolve_left, (step_res_cases hst).resolve_left⟩

end Sys2Proof.Machine
end

section
/-! The fields of the registers (10_state.md rules R37 to R42). -/
namespace Sys2Proof.Machine

/-! ## The fields of the registers -/

/-- A field of a word, read off the word as a number. -/
theorem bits_eq_of_toNat {n hi lo : Nat} {w : BitVec n} {v : BitVec (hi - lo + 1)}
    (h : w.toNat / 2 ^ lo % 2 ^ (hi - lo + 1) = v.toNat) : bits hi lo w = v :=
  BitVec.eq_of_toNat_eq ((bits_toNat hi lo w).trans h)

theorem flag_toNat_lt (b : Bool) : (flag b).toNat < 2 := (flag b).isLt

theorem statusWord_fields (s : State) :
    bits 3 0 s.statusWord = s.st.code ∧ bits 4 4 s.statusWord = flag s.attn ∧ bits 5 5 s.statusWord = flag s.rej ∧
      bits 7 6 s.statusWord = s.policy.code ∧ bits 8 8 s.statusWord = flag s.strobeQ ∧
      bits 9 9 s.statusWord = flag s.autofeed ∧ bits 15 10 s.statusWord = 0#6 ∧ bits 31 16 s.statusWord = s.idx := by
  have := s.st.code.isLt
  have := flag_toNat_lt s.attn
  have := flag_toNat_lt s.rej
  have := s.policy.code.isLt
  have := flag_toNat_lt s.strobeQ
  have := flag_toNat_lt s.autofeed
  have := s.idx.isLt
  refine ⟨?_, ?_, ?_, ?_, ?_, ?_, ?_, ?_⟩ <;>
    (apply bits_eq_of_toNat
     simp only [statusWord_toNat, BitVec.toNat_ofNat]
     omega)

theorem resultWord_fields (s : State) :
    bits 2 0 s.resultWord = s.res.code.code ∧ bits 3 3 s.resultWord = s.res.phase ∧
      bits 4 4 s.resultWord = flag s.res.flags.pe ∧ bits 5 5 s.resultWord = flag s.res.flags.desel ∧
      bits 6 6 s.resultWord = flag s.res.flags.err ∧ bits 15 7 s.resultWord = 0#9 ∧
      bits 31 16 s.resultWord = s.res.ridx := by
  have := s.res.code.code.isLt
  have := s.res.phase.isLt
  have := flag_toNat_lt s.res.flags.pe
  have := flag_toNat_lt s.res.flags.desel
  have := flag_toNat_lt s.res.flags.err
  have := s.res.ridx.isLt
  refine ⟨?_, ?_, ?_, ?_, ?_, ?_, ?_⟩ <;>
    (apply bits_eq_of_toNat
     simp only [resultWord_toNat, BitVec.toNat_ofNat]
     omega)

/-- Settles O23: the fields by `statusWord_fields` and `resultWord_fields`, the codes and reset values by computation. -/
theorem statusAndResultLayout : Obligations.StatusAndResultLayout :=
  ⟨fun s => ⟨statusWord_fields s, resultWord_fields s⟩, by decide, by decide, by decide, rfl, rfl⟩

theorem pstatWord_fields (s : State) :
    bits 0 0 s.pstatWord = flag s.pstat.ack ∧ bits 1 1 s.pstatWord = flag s.pstat.busy ∧
      bits 2 2 s.pstatWord = flag s.pstat.paperEnd ∧ bits 3 3 s.pstatWord = flag s.pstat.select ∧
      bits 4 4 s.pstatWord = flag s.pstat.error ∧ bits 7 5 s.pstatWord = 0#3 ∧ bits 8 8 s.pstatWord = flag s.pvalid ∧
      bits 31 9 s.pstatWord = 0#23 := by
  have := flag_toNat_lt s.pstat.ack
  have := flag_toNat_lt s.pstat.busy
  have := flag_toNat_lt s.pstat.paperEnd
  have := flag_toNat_lt s.pstat.select
  have := flag_toNat_lt s.pstat.error
  have := flag_toNat_lt s.pvalid
  refine ⟨?_, ?_, ?_, ?_, ?_, ?_, ?_, ?_⟩ <;>
    (apply bits_eq_of_toNat
     simp only [pstatWord_toNat, BitVec.toNat_ofNat]
     omega)

theorem faultWord_fields (s : State) :
    bits 0 0 s.faultWord = flag s.fault.pe ∧ bits 1 1 s.faultWord = flag s.fault.desel ∧
      bits 2 2 s.faultWord = flag s.fault.err ∧ bits 3 3 s.faultWord = flag s.fault.timeout ∧
      bits 31 4 s.faultWord = 0#28 := by
  have := flag_toNat_lt s.fault.pe
  have := flag_toNat_lt s.fault.desel
  have := flag_toNat_lt s.fault.err
  have := flag_toNat_lt s.fault.timeout
  refine ⟨?_, ?_, ?_, ?_, ?_⟩ <;>
    (apply bits_eq_of_toNat
     simp only [faultWord_toNat, BitVec.toNat_ofNat]
     omega)

theorem lenWord_fields (s : State) : bits 15 0 s.lenWord = s.len ∧ bits 31 16 s.lenWord = 0#16 := by
  have := s.len.isLt
  refine ⟨?_, ?_⟩ <;>
    (apply bits_eq_of_toNat
     simp only [lenWord_toNat, BitVec.toNat_ofNat]
     omega)

/-- Settles O24: the fields of each word, CMD's read, and the reset values by computation. -/
theorem pstatFaultLenLayout : Obligations.PstatFaultLenLayout := fun s =>
  ⟨pstatWord_fields s, faultWord_fields s, lenWord_fields s, rfl, rfl, rfl, rfl⟩

end Sys2Proof.Machine
end

section
/-! The host register space (20_memory.md rules R52 to R54): which address holds which register, what an access outside the
map does, and that a read is no part of a cycle's effect. -/
namespace Sys2Proof.Machine

/-! ## The register map -/

/-- The address of a register (20_memory.md rule R52). -/
def HostReg.addr : HostReg → HostAddr
  | .cmd    => 0x00#8
  | .status => 0x04#8
  | .result => 0x08#8
  | .pstat  => 0x0C#8
  | .fault  => 0x10#8
  | .len    => 0x14#8

theorem HostReg.ofAddr_eq_some {a : HostAddr} {r : HostReg} : HostReg.ofAddr a = some r ↔ a = r.addr := by
  constructor
  · intro h
    unfold HostReg.ofAddr at h
    repeat' split at h
    all_goals cases h
    all_goals assumption
  · rintro rfl
    cases r <;> rfl

/-- No register is misaligned or in the reserved range. -/
theorem HostReg.ofAddr_eq_none {a : HostAddr} (h : a.toNat % 4 ≠ 0 ∨ 0x18 ≤ a.toNat) : HostReg.ofAddr a = none := by
  have hmap : ∀ r : HostReg, r.addr.toNat % 4 = 0 ∧ r.addr.toNat < 0x18 := by rintro ⟨⟩ <;> decide
  refine Option.eq_none_iff_forall_ne_some.mpr fun r hr => ?_
  obtain rfl := HostReg.ofAddr_eq_some.mp hr
  have := hmap r
  omega

theorem hostRead_of_unmapped {a : HostAddr} (h : HostReg.ofAddr a = none) (s : State) : s.hostRead a = 0#32 := by
  simp only [State.hostRead, h]

/-- Only CMD is writable (20_memory.md rule R54). -/
theorem hostAccess_write_rejected {a : HostAddr} (h : a ≠ 0x00#8) (v : Word) (s : State) :
    hostAccess (.write a v) s = .next s.reject :=
  if_neg fun hc => h (HostReg.ofAddr_eq_some.mp hc)

theorem addr_ne_cmd_of_pos {a : HostAddr} (h : 0 < a.toNat) : a ≠ 0x00#8 := by
  rintro rfl
  cases h

/-- Settles O20: what is no register is not CMD, and reads as 0. -/
theorem accessesOutsideTheRules : Obligations.AccessesOutsideTheRules := by
  refine ⟨fun s a v h => hostAccess_write_rejected (addr_ne_cmd_of_pos (by omega)) v s, fun s a h => ⟨?_, rfl⟩⟩
  obtain rfl | h := h
  · rfl
  · exact hostRead_of_unmapped (HostReg.ofAddr_eq_none h) s

/-- Settles O22: the six registers by computation, the rest by `hostAccess_write_rejected` and `hostRead_of_unmapped`. -/
theorem registerMap : Obligations.RegisterMap := fun s =>
  ⟨rfl, rfl, rfl, rfl, rfl, rfl, fun _ => rfl,
    fun _ v h => hostAccess_write_rejected (addr_ne_cmd_of_pos (by omega)) v s,
    fun _ h => ⟨hostRead_of_unmapped (HostReg.ofAddr_eq_none (.inr h)) s,
      fun v => hostAccess_write_rejected (addr_ne_cmd_of_pos (by omega)) v s⟩⟩

/-! ## The engine does not look at the host's pins -/

/-- The state with other pins in the coming cycles. -/
def State.withHostIn (s : State) (l : List HostPins) : State := { s with hostIn := l }

/-- An engine's outcome with other pins in the coming cycles. -/
def outcomeWithHostIn (l : List HostPins) : Host.Outcome State Fault Refusal → Host.Outcome State Fault Refusal
  | .next e    => .next (e.withHostIn l)
  | .fault r   => .fault r
  | .refused r => .refused r

theorem countDown_withHostIn (s x : State) (l : List HostPins) :
    (s.withHostIn l).countDown (x.withHostIn l) = (s.countDown x).withHostIn l := by
  rw [State.countDown, State.countDown, apply_ite (State.withHostIn · l)]
  rfl

theorem stepSetData_withHostIn (s : State) (l : List HostPins) :
    stepSetData (s.withHostIn l) = (stepSetData s).withHostIn l := by
  have hq : (s.withHostIn l).treq = s.treq := rfl
  have ht : (s.withHostIn l).tresp = s.tresp := rfl
  simp only [stepSetData, hq, ht]
  split <;> rfl

theorem pollReady_withHostIn (s : State) (l : List HostPins) :
    pollReady (s.withHostIn l) = outcomeWithHostIn l (pollReady s) := by
  simp only [pollReady, apply_ite (outcomeWithHostIn l)]
  rfl

theorem pollUndecided_withHostIn (s : State) (l : List HostPins) :
    pollUndecided (s.withHostIn l) = (pollUndecided s).withHostIn l := by
  simp only [pollUndecided, apply_ite (State.withHostIn · l)]
  rfl

theorem pollAnswered_withHostIn (s : State) (b : Byte) (l : List HostPins) :
    pollAnswered (s.withHostIn l) b = outcomeWithHostIn l (pollAnswered s b) := by
  have hp : (s.withHostIn l).params = s.params := rfl
  simp only [pollAnswered, hp]
  split
  · rfl
  · exact pollReady_withHostIn (s.recorded b) l
  · exact congrArg Host.Outcome.next (pollUndecided_withHostIn (s.recorded b) l)

theorem stepPoll_withHostIn (s : State) (l : List HostPins) :
    stepPoll (s.withHostIn l) = outcomeWithHostIn l (stepPoll s) := by
  have hq : (s.withHostIn l).treq = s.treq := rfl
  have ht : (s.withHostIn l).tresp = s.tresp := rfl
  simp only [stepPoll, hq, ht]
  split
  · exact pollAnswered_withHostIn s _ l
  · rfl
  · rfl

theorem engineStep_withHostIn (s : State) (l : List HostPins) :
    engineStep (s.withHostIn l) = outcomeWithHostIn l (engineStep s) := by
  have hs : (s.withHostIn l).st = s.st := rfl
  simp only [engineStep, hs]
  cases s.st with
  | idle | release | faultWait | done => rfl
  | setData => exact congrArg Host.Outcome.next (stepSetData_withHostIn s l)
  | settle => exact congrArg Host.Outcome.next (countDown_withHostIn s s.enterStrobe l)
  | strobe => exact congrArg Host.Outcome.next (countDown_withHostIn s s.enterRelease l)
  | pollWait => exact congrArg Host.Outcome.next (countDown_withHostIn s s.enterPoll l)
  | poll => exact stepPoll_withHostIn s l

/-- Settles O21: a reset ignores the access, and without one the engine does the same and the host nothing. -/
theorem readsHaveNoSideEffect : Obligations.ReadsHaveNoSideEffect := by
  intro s a rst later
  have hq := engineStep_withHostIn s (⟨rst, .none⟩ :: later)
  have hr := engineStep_withHostIn s (⟨rst, .read a⟩ :: later)
  simp only [State.withHostIn] at hq hr
  cases rst with
  | true => rfl
  | false =>
    simp only [step, clockCycle, State.pins, runCycle, hq, hr]
    cases engineStep s with
    | fault r => rfl
    | refused r => rfl
    | next e =>
      simp only [outcomeWithHostIn, hostAccess, State.join]
      cases s.st.inert <;> rfl

/-! ## The command written in a cycle -/

/-- Where the engine moves, the step joined with a command is the engine's with the command's `rej`. -/
theorem step_active_command {s h e : State} (hr : s.pins.rst = false) (hi : s.st.inert = false)
    (hh : hostAccess s.pins.access s = .next h) (he : engineStep s = .next e) :
    step s = .next (s.tick { e with rej := h.rej }) := by
  obtain ⟨r, ⟨ha, rfl⟩ | ⟨ha, rfl⟩, hst⟩ := step_active hr hi he
  all_goals
    rw [hh] at ha
    cases ha
    exact hst

/-- Settles O28: the access of the cycle is `exec i`, alone in an inert state and joined with the engine elsewhere. -/
theorem stepRunsTheWrittenCommand : Obligations.StepRunsTheWrittenCommand := by
  refine ⟨fun s h w i hr ha hd hx => ?_, fun s w => ⟨?_, rfl⟩⟩
  · have hh : hostAccess s.pins.access s = .next h := by rw [ha, hostAccess_command hd, hx]
    exact ⟨fun hi => step_inert hr hi hh, fun hi e he => step_active_command hr hi hh he⟩
  · have hw : BitVec.ofNat 32 (w % 2 ^ 32) = BitVec.ofNat 32 w := BitVec.eq_of_toNat_eq (by simp)
    simp only [State.withFetchWord, State.pins, State.withCommand_hostIn, hw]

end Sys2Proof.Machine
end

section
/-! The transport requests and SEQ (20_memory.md rules R56 to R63): which requests the block makes, how long it holds them,
what the Transport owes, and that no step faults. -/
namespace Sys2Proof.Machine

/-! ## Every state of the invariant steps -/

/-- The READY outcome reads no index at or above `SEQ_MAX` (20_memory.md rule R56). -/
theorem pollReady_next {s : State} (hw : s.idx.toNat < s.len.toNat) (hl : s.len.toNat ≤ s.params.seqMax.toNat) :
    ∃ e, pollReady s = .next e := by
  unfold pollReady
  by_cases hlast : s.idx + 1#16 = s.len
  · exact ⟨_, if_pos hlast⟩
  · have hk := idx_succ_toNat hw
    have hne : (s.idx + 1#16).toNat ≠ s.len.toNat := fun h => hlast (BitVec.eq_of_toNat_eq h)
    have hf : s.indexFits (s.idx + 1#16) = true := (indexFits_iff _ _).mpr (by omega)
    exact ⟨_, (if_neg hlast).trans (if_pos hf)⟩

theorem pollAnswered_next {s : State} (b : Byte) (hw : s.idx.toNat < s.len.toNat)
    (hl : s.len.toNat ≤ s.params.seqMax.toNat) : ∃ e, pollAnswered s b = .next e := by
  simp only [pollAnswered]
  split
  · exact ⟨_, rfl⟩
  · exact pollReady_next (s := s.recorded b) hw hl
  · exact ⟨_, rfl⟩

theorem stepPoll_next {s : State} (h : s.Inv) (hs : s.st = .poll) : ∃ e, stepPoll s = .next e := by
  unfold stepPoll
  split
  · exact pollAnswered_next _ (h.working hs rfl).1 h.lenFits
  · exact ⟨_, rfl⟩
  · exact ⟨_, rfl⟩

theorem engineStep_next {s : State} (h : s.Inv) : ∃ e, engineStep s = .next e := by
  unfold engineStep
  cases hs : s.st with
  | poll => exact stepPoll_next h hs
  | _ => exact ⟨_, rfl⟩

/-- Settles O56: the host's access and, in a state of the invariant, the engine answer a next state. -/
theorem invariantStatesAlwaysStep : Obligations.InvariantStatesAlwaysStep := by
  intro s h
  cases hr : s.pins.rst with
  | true => exact ⟨_, step_reset hr⟩
  | false =>
    cases hi : s.st.inert with
    | true =>
      obtain ⟨x, hx⟩ := hostAccess_next s.pins.access s
      exact ⟨_, step_inert hr hi hx⟩
    | false =>
      obtain ⟨e, he⟩ := engineStep_next h
      obtain ⟨r, _, hst⟩ := step_active hr hi he
      exact ⟨_, hst⟩

/-! ## The two requests -/

/-- What can become of `treq` in a cycle from `s` that leaves it as `q` in the state `st`. -/
inductive RequestCase (s : State) (q : Treq) (st : EngineState) : Prop
  | kept (hq : q = s.treq)
  | gone (hq : q = .none)
  | write (v : Byte) (hq : q = .write s.params.dataAddr v) (hs : st = .setData)
  | read (hq : q = .read s.params.statusAddr) (hs : st = .poll)

theorem CommandCase.request {s x : State} {i : Instr} (hc : CommandCase s x i) : RequestCase s x.treq x.st := by
  cases hc with
  | sendBytes n hb hl hn he => subst he; exact .write _ rfl rfl
  | abortTimeout hs hf he => subst he; exact .gone rfl
  | abortFault hs hf he => subst he; exact .gone rfl
  | _ => subst x; exact .kept rfl

theorem EngineCase.request {s e : State} (hc : EngineCase s e) : RequestCase s e.treq e.st := by
  cases hc with
  | waiting hs he => subst he; exact .kept rfl
  | counting hs hc he => subst he; exact .kept rfl
  | strobeOn hs hc he => subst he; exact .kept rfl
  | strobeOff hs hc he => subst he; exact .kept rfl
  | released hs he => subst he; exact .kept rfl
  | pollIssued hs hc he => subst he; exact .read rfl rfl
  | pollNext a b hs hq ht hc hl hf he => subst he; exact .write _ rfl rfl
  | _ => subst e; exact .gone rfl

theorem step_request {s t : State} (hst : step s = .next t) : RequestCase s t.treq t.st := by
  cases step_cause hst with
  | reset hr ht => subst ht; exact .gone rfl
  | waits r hr hi ht => subst ht; exact .kept rfl
  | command i x hr hi hw ha hc ht => subst ht; exact hc.request
  | engine e r hr hi he hc ht => subst ht; exact hc.request

/-- Settles O49: a request is kept, gone, or one of the two that the engine's states make. -/
theorem requestsAreTheEnginesTwo : Obligations.RequestsAreTheEnginesTwo := by
  intro s t hst hne hn
  cases step_request hst with
  | kept hq => exact absurd hq hne
  | gone hq => exact absurd hq hn
  | write v hq hs => exact .inl ⟨v, hq, hs⟩
  | read hq hs => exact .inr ⟨hq, hs⟩

/-! ## A request until its answer -/

/-- Without an answer the engine waits (20_memory.md rule R61). -/
theorem engineStep_of_silence {s : State} (hs : s.st = .setData ∨ s.st = .poll) (ht : s.tresp = .none) :
    engineStep s = .next s := by
  obtain hs | hs := hs <;> simp only [engineStep, hs, stepSetData, stepPoll, ht] <;> cases s.treq <;> rfl

/-- A classified poll leaves POLL, and its read is gone. -/
theorem pollAnswered_leaves {s e : State} {b : Byte} (h : pollAnswered s b = .next e) :
    e.st ≠ .poll ∧ ∀ a, e.treq ≠ .read a := by
  simp only [pollAnswered] at h
  split at h
  · cases h
    exact ⟨nofun, nofun⟩
  · obtain ⟨_, rfl⟩ | ⟨_, _, rfl⟩ := pollReady_cases h <;> exact ⟨nofun, nofun⟩
  · cases h
    obtain ⟨_, he⟩ | ⟨_, he⟩ := pollUndecided_cases (s.recorded b) <;> rw [State.recorded] at he <;> rw [he] <;>
      exact ⟨nofun, nofun⟩

/-- An answer to a write leaves SET_DATA, and the request is gone (41_handshake_engine.md rule R113). -/
theorem stepSetData_of_answer {s : State} {a : Nat} {v : Byte} (hq : s.treq = .write a v) (ht : s.tresp ≠ .none) :
    (stepSetData s).st ≠ .setData ∧ (stepSetData s).treq = .none := by
  have ha := owed_allows_tresp s
  rw [owed_of_request (hq ▸ nofun), hq] at ha
  cases hr : s.tresp with
  | none => exact absurd hr ht
  | ok => simp [stepSetData, hq, hr]
  | okByte b => rw [hr] at ha; cases ha
  | busErr => simp [stepSetData, hq, hr]

/-- An answer to a read leaves POLL, and the request is gone (41_handshake_engine.md rule R120). -/
theorem stepPoll_of_answer {s e : State} {a : Nat} (hq : s.treq = .read a) (ht : s.tresp ≠ .none)
    (he : stepPoll s = .next e) : e.st ≠ .poll ∧ ∀ a', e.treq ≠ .read a' := by
  have ha := owed_allows_tresp s
  rw [owed_of_request (hq ▸ nofun), hq] at ha
  cases hr : s.tresp with
  | none => exact absurd hr ht
  | ok => rw [hr] at ha; cases ha
  | okByte b =>
    simp only [stepPoll, hq, hr] at he
    exact pollAnswered_leaves he
  | busErr =>
    simp only [stepPoll, hq, hr] at he
    cases he
    exact ⟨nofun, nofun⟩

/-- An answer moves the engine on, and takes the request away. -/
theorem engineStep_of_answer {s e : State} (h : s.Inv) (hs : s.st = .setData ∨ s.st = .poll) (ht : s.tresp ≠ .none)
    (he : engineStep s = .next e) : e.st ≠ s.st ∧ e.treq ≠ s.treq := by
  obtain hs | hs := hs
  · obtain ⟨v, hq, _⟩ := h.reqWrite hs
    simp only [engineStep, hs, Host.Outcome.next.injEq] at he
    subst he
    obtain ⟨h1, h2⟩ := stepSetData_of_answer hq ht
    rw [hs, hq, h2]
    exact ⟨h1, nofun⟩
  · have hq := h.reqRead hs
    simp only [engineStep, hs] at he
    obtain ⟨h1, h2⟩ := stepPoll_of_answer hq ht he
    rw [hs, hq]
    exact ⟨h1, h2 _⟩

/-! ## What the Transport owes after a cycle -/

/-- An answer with no request outstanding is to one that reset cut off (70_reset_and_hazards.md rule R191). -/
theorem abandoned_of_answer {s : State} (hq : s.treq = .none) (ht : s.tresp ≠ .none) :
    s.abandoned ≠ .none ∧ s.abandoned.allows s.tresp = true := by
  have ha := owed_allows_tresp s
  rw [owed_of_no_request hq] at ha
  refine ⟨fun h0 => ht (Treq.none_allows ?_), ha⟩
  rwa [h0] at ha

theorem step_abandoned {s t : State} (hst : step s = .next t) :
    t.abandoned = if t.treq = .none then s.stillOwed else .none := by
  obtain ⟨_, rfl⟩ | ⟨_, _, x, _, rfl⟩ | ⟨_, _, e, r, _, _, rfl⟩ := step_cases hst <;> rfl

/-- Settles O50: the engine waits or moves by `engineStep_of_silence` and `engineStep_of_answer`; the rest is what `tick`
leaves in `abandoned`. -/
theorem requestHeldUntilAnswered : Obligations.RequestHeldUntilAnswered := by
  refine ⟨fun s h hr hs => ?_, fun s ht => ⟨fun hq => ?_, fun hq => abandoned_of_answer hq ht⟩,
    fun s t hst => ⟨fun hq => ?_, fun hq ht => ?_, fun hq ht hq' => ?_⟩, fun s t hr hst hq => ?_⟩
  · have hi : s.st.inert = false := by rcases hs with hs | hs <;> rw [hs] <;> rfl
    refine ⟨fun ht => ?_, fun ht => ?_⟩
    · obtain ⟨r, _, hst⟩ := step_active hr hi (engineStep_of_silence hs ht)
      exact ⟨_, hst, rfl, rfl, rfl⟩
    · obtain ⟨e, he⟩ := engineStep_next h
      obtain ⟨r, _, hst⟩ := step_active hr hi he
      obtain ⟨hmoved, hgone⟩ := engineStep_of_answer h hs ht he
      exact ⟨_, hst, hmoved, hgone⟩
  · exact owed_of_request hq ▸ owed_allows_tresp s
  · rw [step_abandoned hst, if_neg hq]
  · rw [step_abandoned hst, stillOwed_of_answer ht, ite_self]
  · rw [step_abandoned hst, if_pos hq', stillOwed_of_silence ht, owed_of_no_request hq]
  · rw [step_reset hr] at hst
    cases hst
    refine ⟨rfl, ?_⟩
    show s.stillOwed = _
    split
    · next ht => rw [stillOwed_of_silence ht, owed_of_request hq]
    · next ht => exact stillOwed_of_answer ht

/-! ## SEQ and autofeed in a transfer -/

/-- Settles O45: SETLE and WRBUF are accepted between transfers only. -/
theorem bufferAndAutofeedFixedInATransfer : Obligations.BufferAndAutofeedFixedInATransfer := by
  intro s t hs hst
  obtain ⟨hidle, hdone⟩ := (inTransfer_iff _).mp hs
  have hbusy : ¬ (s.st = .idle ∨ s.st = .done) := not_or.mpr ⟨hidle, hdone⟩
  refine ⟨?_, fun hr => ?_⟩
  · obtain hk | ⟨_, rfl⟩ | ⟨a, v, _, ha, _⟩ := step_seq_cases hst
    · exact hk.seq
    · rfl
    · exact absurd ha.1 hbusy
  · have hr : s.pins.rst ≠ true := Bool.eq_false_iff.mp hr
    have hp : t.policy = s.policy :=
      (step_policy_cases hst).resolve_right fun h => h.elim hr fun ⟨_, _, ha, _⟩ => hbusy ha.1
    refine ⟨hp, by rw [State.autofeed, State.autofeed, hp], fun j => ?_⟩
    exact (step_known_cases hst j).resolve_right fun h => h.elim hr fun ⟨_, _, _, ha, _⟩ => hbusy ha.1

end Sys2Proof.Machine
end

section
/-! The command word (30_encoding.md rules R71 to R79): its formats by their fields, the decoder by its opcodes, and the
decoder as the inverse of the encoder. -/
namespace Sys2Proof

/-! ## The formats as fields of the word (R71 to R74) -/

theorem append_eq_iff {n m : Nat} {w : BitVec (n + m)} {a : BitVec n} {b : BitVec m} :
    a ++ b = w ↔ w.extractLsb' m n = a ∧ w.extractLsb' 0 m = b := by
  constructor
  · rintro rfl
    exact ⟨BitVec.extractLsb'_append_eq_left, BitVec.extractLsb'_append_eq_right⟩
  · rintro ⟨rfl, rfl⟩
    exact BitVec.extractLsb'_append_extractLsb'

theorem extractLsb'_eq_append_iff {k lo n m : Nat} {w : BitVec k} {a : BitVec n} {b : BitVec m} :
    w.extractLsb' lo (n + m) = a ++ b ↔ w.extractLsb' (lo + m) n = a ∧ w.extractLsb' lo m = b := by
  rw [← BitVec.extractLsb'_append_extractLsb'_eq_extractLsb' (x := w) rfl, append_eq_iff,
    BitVec.extractLsb'_append_eq_left, BitVec.extractLsb'_append_eq_right, eq_comm, eq_comm (a := b)]

/-- The format without operands. -/
theorem bareFormat_iff {w : Word} {op : BitVec 4} {z : BitVec 28} :
    op ++ z = w ↔ bits 31 28 w = op ∧ bits 27 0 w = z := append_eq_iff

/-- The format of SEND. -/
theorem sendFormat_iff {w : Word} {op : BitVec 4} {z : BitVec 12} {n : Half} :
    op ++ z ++ n = w ↔ bits 31 28 w = op ∧ bits 27 16 w = z ∧ bits 15 0 w = n := by
  rw [append_eq_iff, extractLsb'_eq_append_iff, and_assoc]
  exact .rfl

/-- The format of SETLE. -/
theorem setleFormat_iff {w : Word} {op : BitVec 4} {z : BitVec 26} {pol : BitVec 2} :
    op ++ z ++ pol = w ↔ bits 31 28 w = op ∧ bits 27 2 w = z ∧ bits 1 0 w = pol := by
  rw [append_eq_iff, extractLsb'_eq_append_iff, and_assoc]
  exact .rfl

/-- The format of WRBUF. -/
theorem wrbufFormat_iff {w : Word} {op z : BitVec 4} {a : Half} {v : Byte} :
    op ++ z ++ a ++ v = w ↔ bits 31 28 w = op ∧ bits 27 24 w = z ∧ bits 23 8 w = a ∧ bits 7 0 w = v := by
  rw [append_eq_iff, extractLsb'_eq_append_iff, extractLsb'_eq_append_iff, and_assoc, and_assoc]
  exact .rfl

/-! ## The decoder, one equation for each opcode (R79) -/

section
variable {w : Word}

theorem opcode_cases (op : BitVec 4) :
    op = 0#4 ∨ op = 1#4 ∨ op = 2#4 ∨ op = 3#4 ∨ op = 4#4 ∨ op = 5#4 ∨ op = 6#4 ∨ 7#4 ≤ op := by
  revert op
  decide

theorem decode_of_op0 (h : bits 31 28 w = 0#4) : decode w = unlessSet (bits 27 0 w) .nop := by
  simp [decode, h]

theorem decode_of_op1 (h : bits 31 28 w = 1#4) : decode w = unlessSet (bits 27 16 w) (.send (bits 15 0 w)) := by
  simp [decode, h]

theorem decode_of_op2 (h : bits 31 28 w = 2#4) : decode w = unlessSet (bits 27 0 w) .retry := by
  simp [decode, h]

theorem decode_of_op3 (h : bits 31 28 w = 3#4) : decode w = unlessSet (bits 27 0 w) .abort := by
  simp [decode, h]

theorem decode_of_op4 (h : bits 31 28 w = 4#4) :
    decode w = if bits 1 0 w = 3#2 then .error .policy else unlessSet (bits 27 2 w) (.setle (bits 1 0 w)) := by
  simp [decode, h]

theorem decode_of_op5 (h : bits 31 28 w = 5#4) : decode w = unlessSet (bits 27 0 w) .ack := by
  simp [decode, h]

theorem decode_of_op6 (h : bits 31 28 w = 6#4) :
    decode w = unlessSet (bits 27 24 w) (.wrbuf (bits 23 8 w) (bits 7 0 w)) := by
  simp [decode, h]

theorem decode_of_reserved_op (h : 7#4 ≤ bits 31 28 w) : decode w = .error .opcode := by
  have hne : ∀ op : BitVec 4, 7#4 ≤ op →
      op ≠ 0#4 ∧ op ≠ 1#4 ∧ op ≠ 2#4 ∧ op ≠ 3#4 ∧ op ≠ 4#4 ∧ op ≠ 5#4 ∧ op ≠ 6#4 := by decide
  simp [decode, hne _ h]

/-! ## Decoding and encoding are inverse -/

theorem encode_of_decode {i : Instr} (h : decode w = .ok i) : encode i = w ∧ i.wellFormed = true := by
  obtain hop | hop | hop | hop | hop | hop | hop | hop := opcode_cases (bits 31 28 w)
  · rw [decode_of_op0 hop, unlessSet_ok] at h
    obtain ⟨hz, rfl⟩ := h
    exact ⟨bareFormat_iff.mpr ⟨hop, hz⟩, rfl⟩
  · rw [decode_of_op1 hop, unlessSet_ok] at h
    obtain ⟨hz, rfl⟩ := h
    exact ⟨sendFormat_iff.mpr ⟨hop, hz, rfl⟩, rfl⟩
  · rw [decode_of_op2 hop, unlessSet_ok] at h
    obtain ⟨hz, rfl⟩ := h
    exact ⟨bareFormat_iff.mpr ⟨hop, hz⟩, rfl⟩
  · rw [decode_of_op3 hop, unlessSet_ok] at h
    obtain ⟨hz, rfl⟩ := h
    exact ⟨bareFormat_iff.mpr ⟨hop, hz⟩, rfl⟩
  · rw [decode_of_op4 hop] at h
    split at h
    · cases h
    · next hpol =>
      obtain ⟨hz, rfl⟩ := unlessSet_ok.mp h
      exact ⟨setleFormat_iff.mpr ⟨hop, hz, rfl⟩, bne_iff_ne.mpr hpol⟩
  · rw [decode_of_op5 hop, unlessSet_ok] at h
    obtain ⟨hz, rfl⟩ := h
    exact ⟨bareFormat_iff.mpr ⟨hop, hz⟩, rfl⟩
  · rw [decode_of_op6 hop, unlessSet_ok] at h
    obtain ⟨hz, rfl⟩ := h
    exact ⟨wrbufFormat_iff.mpr ⟨hop, hz, rfl, rfl⟩, rfl⟩
  · rw [decode_of_reserved_op hop] at h
    cases h

end

theorem decode_encode {i : Instr} (hw : i.wellFormed = true) : decode (encode i) = .ok i := by
  cases i with
  | nop => decide
  | send n =>
    obtain ⟨hop, hz, hn⟩ := sendFormat_iff.mp (rfl : _ = encode (.send n))
    rw [decode_of_op1 hop, unlessSet_ok, hn]
    exact ⟨hz, rfl⟩
  | retry => decide
  | abort => decide
  | setle pol =>
    obtain ⟨hop, hz, hpol⟩ := setleFormat_iff.mp (rfl : _ = encode (.setle pol))
    rw [decode_of_op4 hop, hpol, if_neg (bne_iff_ne.mp hw), unlessSet_ok]
    exact ⟨hz, rfl⟩
  | ack => decide
  | wrbuf a v =>
    obtain ⟨hop, hz, ha, hv⟩ := wrbufFormat_iff.mp (rfl : _ = encode (.wrbuf a v))
    rw [decode_of_op6 hop, unlessSet_ok, ha, hv]
    exact ⟨hz, rfl⟩

theorem decode_ok_iff {w : Word} {i : Instr} : decode w = .ok i ↔ encode i = w ∧ i.wellFormed = true :=
  ⟨encode_of_decode, fun ⟨he, hw⟩ => he ▸ decode_encode hw⟩

/-- Settles O1: the fields of the encoded word, by its format, are what the decoder's equation for its opcode reads. -/
theorem decodeOfEncode : Obligations.DecodeOfEncode := fun _ hw => decode_ok_iff.mpr ⟨rfl, hw⟩

/-- Settles O2: the opcode and the must-be-zero field of the word fix it as its command's format. -/
theorem encodeOfDecode : Obligations.EncodeOfDecode := fun _ _ => decode_ok_iff.mp

/-! ## The reserved words (R77) -/

theorem unlessSet_reserved_iff {n : Nat} {mbz : BitVec n} {i : Instr} :
    (∃ r, unlessSet mbz i = .error r) ↔ mbz ≠ 0#n := by
  simp [unlessSet_error]

theorem command_of_reserved {w : Word} {r : ReservedReason} (h : decode w = .error r) (s : Machine.State) :
    Machine.command w s = .next s.reject := by
  simp [Machine.command, h]

theorem decode_error_iff (w : Word) : (∃ r, decode w = .error r) ↔
    (7#4 ≤ bits 31 28 w) ∨
    ((bits 31 28 w = 0#4 ∨ bits 31 28 w = 2#4 ∨ bits 31 28 w = 3#4 ∨ bits 31 28 w = 5#4) ∧ bits 27 0 w ≠ 0#28) ∨
    (bits 31 28 w = 1#4 ∧ bits 27 16 w ≠ 0#12) ∨
    (bits 31 28 w = 4#4 ∧ bits 27 2 w ≠ 0#26) ∨
    (bits 31 28 w = 6#4 ∧ bits 27 24 w ≠ 0#4) ∨
    (bits 31 28 w = 4#4 ∧ bits 1 0 w = 3#2) := by
  obtain hop | hop | hop | hop | hop | hop | hop | hop := opcode_cases (bits 31 28 w)
  · rw [decode_of_op0 hop, unlessSet_reserved_iff]
    simp [hop]
  · rw [decode_of_op1 hop, unlessSet_reserved_iff]
    simp [hop]
  · rw [decode_of_op2 hop, unlessSet_reserved_iff]
    simp [hop]
  · rw [decode_of_op3 hop, unlessSet_reserved_iff]
    simp [hop]
  · rw [decode_of_op4 hop]
    split
    · next hpol => simp [hop, hpol]
    · next hpol => simp [unlessSet_reserved_iff, hop, hpol]
  · rw [decode_of_op5 hop, unlessSet_reserved_iff]
    simp [hop]
  · rw [decode_of_op6 hop, unlessSet_reserved_iff]
    simp [hop]
  · rw [decode_of_reserved_op hop]
    simp [hop]

/-- Settles O3: `decode_error_iff` reads the reserved words off the decoder's equations; the host port rejects them. -/
theorem reservedWordsExactly : Obligations.ReservedWordsExactly :=
  ⟨decode_error_iff, fun _ _ s h => command_of_reserved h s, by decide, ⟨.opcode, by decide⟩, ⟨.mustBeZero, by decide⟩⟩

/-! ## The opcode map (R76) -/

theorem tableRow (i : Instr) : Laws.TableRow.Statement i := by
  cases i with
  | nop => exact Laws.TableRow.nop
  | send n => exact Laws.TableRow.send n
  | retry => exact Laws.TableRow.retry
  | abort => exact Laws.TableRow.abort
  | setle pol => exact Laws.TableRow.setle pol
  | ack => exact Laws.TableRow.ack
  | wrbuf a v => exact Laws.TableRow.wrbuf a v

theorem matchesWord_iff {r : OpcodeRow} {w : Word} :
    r.matchesWord w = true ↔ w &&& r.mask = r.pattern ∧ w ∉ r.excludes := by
  simp [OpcodeRow.matchesWord]

theorem encode_setle_ne_excluded :
    ∀ pol : BitVec 2, (Instr.setle pol).wellFormed = true → encode (.setle pol) ≠ 0x40000003#32 := by decide

theorem row_matches_encode {i : Instr} (hw : i.wellFormed = true) : i.row.matchesWord (encode i) = true := by
  obtain ⟨hm, _⟩ := tableRow i
  refine matchesWord_iff.mpr ⟨hm, ?_⟩
  cases i with
  | setle pol => exact fun h => encode_setle_ne_excluded pol hw (List.mem_singleton.mp h)
  | _ => exact List.not_mem_nil

/-- A word with the high bits `p`, the others masked out, is `p` before some low bits. -/
theorem exists_append_of_masked {n m : Nat} {w : BitVec (n + m)} {p : BitVec n}
    (h : w &&& (BitVec.allOnes n ++ 0#m) = p ++ 0#m) : ∃ x : BitVec m, p ++ x = w := by
  have hw : w.extractLsb' m n ++ w.extractLsb' 0 m = w := append_eq_iff.mpr ⟨rfl, rfl⟩
  rw [← hw, Laws.TableRow.append_and_ones_zeros] at h
  have hp : w.extractLsb' m n = p := (BitVec.append_left_inj 0#m).mp h
  exact ⟨w.extractLsb' 0 m, by rw [← hp, hw]⟩

theorem eq_of_masked_full {w p : Word} (h : w &&& 0xFFFFFFFF#32 = p) : p = w :=
  h.symm.trans (BitVec.and_allOnes (x := w))

theorem exists_encode_of_matches {w : Word} {r : OpcodeRow} (hr : r ∈ opcodeMap) (h : r.matchesWord w = true) :
    ∃ i : Instr, i.row = r ∧ encode i = w ∧ i.wellFormed = true := by
  obtain ⟨hm, hx⟩ := matchesWord_iff.mp h
  simp only [opcodeMap, List.mem_cons, List.not_mem_nil, or_false] at hr
  obtain rfl | rfl | rfl | rfl | rfl | rfl | rfl := hr
  · exact ⟨.nop, rfl, eq_of_masked_full hm, rfl⟩
  · obtain ⟨n, rfl⟩ := exists_append_of_masked (m := 16) (p := 0x1000#16) hm
    exact ⟨.send n, rfl, rfl, rfl⟩
  · exact ⟨.retry, rfl, eq_of_masked_full hm, rfl⟩
  · exact ⟨.abort, rfl, eq_of_masked_full hm, rfl⟩
  · obtain ⟨pol, rfl⟩ := exists_append_of_masked (m := 2) (p := 0x10000000#30) hm
    refine ⟨.setle pol, rfl, rfl, bne_iff_ne.mpr ?_⟩
    rintro rfl
    exact hx (List.mem_singleton.mpr rfl)
  · exact ⟨.ack, rfl, eq_of_masked_full hm, rfl⟩
  · obtain ⟨x, rfl⟩ := exists_append_of_masked (m := 24) (p := 0x60#8) hm
    obtain ⟨a, v, rfl⟩ : ∃ (a : Half) (v : Byte), a ++ v = x := ⟨_, _, BitVec.extractLsb'_append_extractLsb'⟩
    exact ⟨.wrbuf a v, rfl, BitVec.append_assoc (x₁ := 0x60#8), rfl⟩

/-- Settles O4: a row is matched by the encodings of its well-formed commands and by no other word. -/
theorem opcodeMapIsTheDecoder : Obligations.OpcodeMapIsTheDecoder := by
  refine ⟨fun w i h => ?_, fun w r hr h => ?_, fun w h => ⟨_, decode_of_reserved_op h⟩⟩
  · obtain ⟨rfl, hw⟩ := decode_ok_iff.mp h
    exact ⟨(tableRow i).2, row_matches_encode hw⟩
  · obtain ⟨i, hi, hw⟩ := exists_encode_of_matches hr h
    exact ⟨i, decode_ok_iff.mpr hw, hi⟩

end Sys2Proof
end

section
/-! The assembler (30_encoding.md rules R80, R81 and R83): operands carried whole or refused, and the expansions. -/
namespace Sys2Proof.Machine

/-! ## Operands (R80) -/

theorem operand_of_lt {m n : Nat} (h : n < 2 ^ m) : operand m n = .ok (BitVec.ofNat m n) := if_pos h

theorem operand_of_ge {m n : Nat} (h : 2 ^ m ≤ n) : operand m n = .error .operandRange := if_neg (Nat.not_lt.mpr h)

theorem asmSend_of_le {n : Nat} (h : n ≤ 65535) : asmSend n = .ok (.send (BitVec.ofNat 16 n)) := by
  rw [asmSend, operand_of_lt (by omega)]

theorem asmSend_of_gt {n : Nat} (h : 65535 < n) : asmSend n = .error .operandRange := by
  rw [asmSend, operand_of_ge (by omega)]

theorem asmWrbuf_of_le {a v : Nat} (ha : a ≤ 65535) (hv : v ≤ 255) :
    asmWrbuf a v = .ok (.wrbuf (BitVec.ofNat 16 a) (BitVec.ofNat 8 v)) := by
  rw [asmWrbuf, operand_of_lt (m := 16) (by omega), operand_of_lt (m := 8) (by omega)]

theorem asmWrbuf_of_gt {a v : Nat} (h : 65535 < a ∨ 255 < v) : asmWrbuf a v = .error .operandRange := by
  obtain h | h := h
  · rw [asmWrbuf, operand_of_ge (m := 16) (by omega)]
  · rw [asmWrbuf, operand_of_ge (m := 8) (by omega)]
    cases operand 16 a <;> rfl

/-- Settles O7: in range `BitVec.ofNat` keeps the number. -/
theorem operandsNeverTruncated : Obligations.OperandsNeverTruncated := by
  refine ⟨fun n h => ⟨BitVec.ofNat 16 n, ?_, ?_⟩, fun n h => ?_,
    fun a v ha hv => ⟨BitVec.ofNat 16 a, BitVec.ofNat 8 v, ?_, ?_, ?_⟩, fun a v h => ?_⟩
  · exact (BitVec.toNat_ofNat ..).trans (Nat.mod_eq_of_lt (by omega))
  · rw [assemble, asmSend_of_le h]; rfl
  · rw [assemble, asmSend_of_gt h]; rfl
  · exact (BitVec.toNat_ofNat ..).trans (Nat.mod_eq_of_lt (by omega))
  · exact (BitVec.toNat_ofNat ..).trans (Nat.mod_eq_of_lt (by omega))
  · rw [assemble, asmWrbuf_of_le ha hv]; rfl
  · rw [assemble, asmWrbuf_of_gt h]; rfl

/-! ## Pseudo-instructions (R81) -/

/-- The WRBUFs that write `vs` from index `a` on. -/
def bytesFrom (a : Nat) (vs : List Nat) : List Instr :=
  vs.mapIdx fun j v => .wrbuf (BitVec.ofNat 16 (a + j)) (BitVec.ofNat 8 v)

theorem bytesFrom_cons (a v : Nat) (vs : List Nat) :
    bytesFrom a (v :: vs) = .wrbuf (BitVec.ofNat 16 a) (BitVec.ofNat 8 v) :: bytesFrom (a + 1) vs := by
  simp only [bytesFrom, List.mapIdx_cons, Nat.add_zero, Nat.add_assoc, Nat.add_comm 1]

theorem asmBytes_of_fits {a : Nat} {vs : List Nat} (hv : ∀ v ∈ vs, v ≤ 255) (ha : a + vs.length ≤ 65536) :
    asmBytes a vs = .ok (bytesFrom a vs) := by
  induction vs generalizing a with
  | nil => rfl
  | cons v vs ih =>
    obtain ⟨hv0, hvs⟩ := List.forall_mem_cons.mp hv
    rw [List.length_cons] at ha
    have hi : asmWrbuf a v = .ok _ := asmWrbuf_of_le (by omega) hv0
    have his : asmBytes (a + 1) vs = .ok _ := ih hvs (by omega)
    simp only [asmBytes, hi, his, bytesFrom_cons]

/-- A WRBUF has no error but an operand out of range. -/
theorem asmWrbuf_cases (a v : Nat) : asmWrbuf a v = .error .operandRange ∨ ∃ i, asmWrbuf a v = .ok i := by
  unfold asmWrbuf
  split
  · exact .inr ⟨_, rfl⟩
  · exact .inl rfl

theorem asmBytes_cases (a : Nat) (vs : List Nat) :
    asmBytes a vs = .error .operandRange ∨ ∃ is, asmBytes a vs = .ok is := by
  induction vs generalizing a with
  | nil => exact .inr ⟨_, rfl⟩
  | cons v vs ih =>
    obtain hi | ⟨i, hi⟩ := asmWrbuf_cases a v
    · left; simp only [asmBytes, hi]
    · obtain his | ⟨is, his⟩ := ih (a + 1)
      · left; simp only [asmBytes, hi, his]
      · right; simp only [asmBytes, hi, his]; exact ⟨_, rfl⟩

/-- One operand out of range refuses the whole expansion. -/
theorem asmBytes_of_out {a : Nat} {vs : List Nat} (h : ∃ j, ∃ hj : j < vs.length, 65535 < a + j ∨ 255 < vs[j]) :
    asmBytes a vs = .error .operandRange := by
  induction vs generalizing a with
  | nil => obtain ⟨j, hj, _⟩ := h; cases hj
  | cons v vs ih =>
    obtain ⟨j, hj, hout⟩ := h
    cases j with
    | zero =>
      have hi : asmWrbuf a v = .error .operandRange := asmWrbuf_of_gt hout
      simp only [asmBytes, hi]
    | succ j =>
      have his : asmBytes (a + 1) vs = .error .operandRange :=
        ih ⟨j, Nat.lt_of_succ_lt_succ hj, by rwa [Nat.add_assoc, Nat.add_comm 1]⟩
      obtain hi | ⟨i, hi⟩ := asmWrbuf_cases a v <;> simp only [asmBytes, hi, his]

theorem asmBytes_of_large_byte {a : Nat} {vs : List Nat} (h : ∃ v ∈ vs, 255 < v) :
    asmBytes a vs = .error .operandRange := by
  obtain ⟨v, hv, hlt⟩ := h
  obtain ⟨j, hj, rfl⟩ := List.mem_iff_getElem.mp hv
  exact asmBytes_of_out ⟨j, hj, .inr hlt⟩

theorem assemble_loadbuf {a : Nat} {vs : List Nat} (h : vs ≠ []) : assemble (.loadbuf a vs) = asmBytes a vs := by
  rw [assemble, if_neg (by simpa using h)]

theorem assemble_print_ok {vs : List Nat} {is : List Instr} {i : Instr} (h : vs ≠ []) (his : asmBytes 0 vs = .ok is)
    (hi : asmSend vs.length = .ok i) : assemble (.print vs) = .ok (is ++ [i]) := by
  rw [assemble, if_neg (by simpa using h), his, hi]

theorem assemble_print_error {vs : List Nat} (h : vs ≠ [])
    (hr : asmBytes 0 vs = .error .operandRange ∨ asmSend vs.length = .error .operandRange) :
    assemble (.print vs) = .error .operandRange := by
  rw [assemble, if_neg (by simpa using h)]
  obtain his | ⟨is, his⟩ := asmBytes_cases 0 vs
  · rw [his]
  · obtain hb | hi := hr
    · rw [hb]
    · rw [his, hi]

/-- Settles O8: the expansions by `asmBytes_of_fits`, their errors by `asmBytes_of_out` and `asmSend_of_gt`. -/
theorem pseudoInstructionsExpand : Obligations.PseudoInstructionsExpand := by
  refine ⟨fun a vs hne hv ha => ?_, fun a vs hne hv ha => ?_, fun vs hne hv hl => ?_, fun vs hl => ?_, fun a vs h => ?_, rfl⟩
  · rw [assemble_loadbuf hne]
    exact asmBytes_of_fits hv (by omega)
  · have := List.length_pos_of_ne_nil hne
    rw [assemble_loadbuf hne]
    exact asmBytes_of_out ⟨vs.length - 1, by omega, .inl ha⟩
  · have his : asmBytes 0 vs = .ok _ := asmBytes_of_fits hv (by omega)
    exact ⟨_, (assemble_loadbuf hne).trans his, assemble_print_ok hne his (asmSend_of_le hl)⟩
  · exact assemble_print_error (List.ne_nil_of_length_pos (by omega)) (.inr (asmSend_of_gt hl))
  · have hne : vs ≠ [] := by
      rintro rfl
      simp at h
    exact ⟨(assemble_loadbuf hne).trans (asmBytes_of_large_byte h), assemble_print_error hne (.inl (asmBytes_of_large_byte h))⟩

/-! ## Fixed words (R83 and 95_test_vectors.md section 2.2) -/

/-- Settles O5, by computation: twelve fixed commands. -/
theorem encodingCheckValues : Obligations.EncodingCheckValues := by
  unfold Obligations.EncodingCheckValues
  decide

/-- Settles O6, by computation: nine fixed words. -/
theorem wordsDecodeAsWritten : Obligations.WordsDecodeAsWritten := by
  unfold Obligations.WordsDecodeAsWritten
  decide

end Sys2Proof.Machine
end

section
/-! The Status Monitor (40_status_monitor.md rules R101 to R107): the predicates, the classification and the 32 statuses. -/
namespace Sys2Proof.Machine

/-! ## The predicates and the fault reasons (R101, R102 and R105) -/

theorem isFault_iff (ps : PrinterStatus) :
    isFault ps = true ↔ ps.paperEnd = true ∨ ps.select = false ∨ ps.error = false := by
  simp [isFault, or_assoc]

theorem rawReady_iff (p : Params) (ps : PrinterStatus) :
    rawReady p ps = true ↔ ps.busy = false ∧ (ps.ack = true ∨ p.ackDistinguishable = false) := by
  simp [rawReady]

/-- `isFault` is the disjunction of the three reasons. -/
theorem isFault_iff_faultFlags_ne (ps : PrinterStatus) : isFault ps = true ↔ faultFlags ps ≠ noFlags := by
  simp [isFault_iff, faultFlags, noFlags, ← Bool.not_eq_true, imp_iff_not_or]

/-! ## The classification (R103 and R104) -/

theorem classify_of_fault {p : Params} {ps : PrinterStatus} (h : isFault ps = true) :
    classify p ps = .fault (faultFlags ps) := if_pos h

/-- The three outcomes, each with what the predicates are for it. -/
theorem classify_cases (p : Params) (ps : PrinterStatus) :
    (isFault ps = true ∧ classify p ps = .fault (faultFlags ps)) ∨
    (isFault ps = false ∧ rawReady p ps = true ∧ classify p ps = .ready) ∨
    (isFault ps = false ∧ rawReady p ps = false ∧ classify p ps = .undecided) := by
  cases hf : isFault ps with
  | true => exact .inl ⟨rfl, classify_of_fault hf⟩
  | false => cases hr : rawReady p ps <;> simp [classify, hf, hr]

theorem classify_eq_fault_iff {p : Params} {ps : PrinterStatus} {f : DeviceFlags} :
    classify p ps = .fault f ↔ isFault ps = true ∧ f = faultFlags ps := by
  obtain ⟨hf, hc⟩ | ⟨hf, _, hc⟩ | ⟨hf, _, hc⟩ := classify_cases p ps <;> simp [hf, hc, eq_comm]

theorem classify_eq_ready_iff {p : Params} {ps : PrinterStatus} :
    classify p ps = .ready ↔ rawReady p ps = true ∧ isFault ps = false := by
  obtain ⟨hf, hc⟩ | ⟨hf, hr, hc⟩ | ⟨hf, hr, hc⟩ := classify_cases p ps
  · simp [hf, hc]
  · simp [hf, hr, hc]
  · simp [hr, hc]

theorem classify_eq_undecided_iff {p : Params} {ps : PrinterStatus} :
    classify p ps = .undecided ↔ isFault ps = false ∧ rawReady p ps = false := by
  obtain ⟨hf, hc⟩ | ⟨hf, hr, hc⟩ | ⟨hf, hr, hc⟩ := classify_cases p ps
  · simp [hf, hc]
  · simp [hr, hc]
  · simp [hf, hr, hc]

/-- Settles O25: each part is the equivalence of its predicate or of its outcome. -/
theorem classificationRules : Obligations.ClassificationRules := fun p ps =>
  ⟨isFault_iff ps, rawReady_iff p ps, classify_eq_ready_iff, fun _ => classify_eq_fault_iff, classify_eq_undecided_iff,
    isFault_iff_faultFlags_ne ps⟩

/-! ## The 32 statuses (R107) -/

/-- Without a fault, `ack` and `busy` decide between READY and UNDECIDED. -/
theorem classify_faultless (p : Params) (ack busy : Bool) :
    classify p ⟨ack, busy, false, true, true⟩ = if !busy && (ack || !p.ackDistinguishable) then .ready else .undecided :=
  rfl

/-- Settles O26: the 28 by `classify_of_fault`, the other four by `classify_faultless`. -/
theorem classificationCounts : Obligations.ClassificationCounts := by
  refine fun p => ⟨fun pe sel err ack busy h => ?_, fun hd => ?_, fun hd => ?_⟩
  · exact ⟨_, classify_of_fault ((isFault_iff _).mpr h)⟩
  · simp [classify_faultless, hd]
  · simp [classify_faultless, hd]

end Sys2Proof.Machine
end

section
/-! Byte values decide nothing (41_handshake_engine.md rule R128): an operation ignores the values of the bytes if hiding them
before it or only after it comes to the same. Each operation does, so the step does. -/
namespace Sys2Proof.Machine

/-! ## Hiding the bytes -/

@[simp] theorem Treq.hideBytes_eq_none (q : Treq) : q.hideBytes = .none ↔ q = .none := by
  cases q <;> simp [Treq.hideBytes]

@[simp] theorem Treq.hideBytes_allows (q : Treq) (r : Tresp) : q.hideBytes.allows r = q.allows r := by
  cases q <;> cases r <;> rfl

theorem owed_hideBytes (s : State) : s.hideBytes.owed = s.owed.hideBytes := by
  simp only [State.owed, State.hideBytes, Treq.hideBytes_eq_none, apply_ite Treq.hideBytes]

/-- The Transport's contract does not speak of the byte written (20_memory.md rule R62). -/
@[simp] theorem tresp_hideBytes (s : State) : s.hideBytes.tresp = s.tresp := by
  simp only [State.tresp, owed_hideBytes, Treq.hideBytes_allows]
  rfl

theorem stillOwed_hideBytes (s : State) : s.hideBytes.stillOwed = s.stillOwed.hideBytes := by
  simp only [State.stillOwed, owed_hideBytes, tresp_hideBytes, Treq.hideBytes_eq_none, apply_ite Treq.hideBytes]
  rfl

@[simp] theorem hideBytes_hideBytes (s : State) : s.hideBytes.hideBytes = s.hideBytes := by
  have hm : s.seq.hideBytes.hideBytes = s.seq.hideBytes := by simp [Memory.hideBytes]
  have hq : ∀ q : Treq, q.hideBytes.hideBytes = q.hideBytes := fun q => by cases q <;> rfl
  simp [State.hideBytes, hm, hq, Function.comp_def]

theorem tick_hideBytes (s x : State) : (s.tick x).hideBytes = s.hideBytes.tick x.hideBytes := by
  simp only [State.tick, stillOwed_hideBytes]
  simp only [State.hideBytes, Treq.hideBytes_eq_none, apply_ite Treq.hideBytes]
  rfl

/-- Reset reads the indices of SEQ alone. -/
theorem resetElements_hideBytes (s : State) : s.resetElements.hideBytes = s.hideBytes.resetElements := by
  have hm : s.seq.hideBytes.map Prod.fst = s.seq.map Prod.fst := by simp [Memory.hideBytes]
  simp only [State.resetElements, State.hideBytes, hm]
  rfl

/-! ## Operations that ignore the values of the bytes -/

/-- What the operation leaves does not depend on the values of the bytes, but for those it carries. -/
def IgnoresBytes (f : State → State) : Prop := ∀ s, (f s.hideBytes).hideBytes = (f s).hideBytes

def hideOutcome : Host.Outcome State Fault Refusal → Host.Outcome State Fault Refusal
  | .next e    => .next e.hideBytes
  | .fault r   => .fault r
  | .refused r => .refused r

/-- `IgnoresBytes` of an operation that may stop. -/
def OutcomeIgnoresBytes (f : State → Host.Outcome State Fault Refusal) : Prop :=
  ∀ s, hideOutcome (f s.hideBytes) = hideOutcome (f s)

theorem ignoresBytes_id : IgnoresBytes fun s => s := hideBytes_hideBytes

theorem ignoresBytes_of_commutes {f : State → State} (h : ∀ s, (f s).hideBytes = f s.hideBytes) : IgnoresBytes f :=
  fun s => by rw [h, h, hideBytes_hideBytes]

theorem IgnoresBytes.comp {f g : State → State} (hf : IgnoresBytes f) (hg : IgnoresBytes g) :
    IgnoresBytes fun s => f (g s) := fun s => by
  rw [← hf (g s.hideBytes), hg, hf]

theorem IgnoresBytes.ite {c : State → Prop} [∀ s, Decidable (c s)] {f g : State → State} (hc : ∀ s, c s.hideBytes ↔ c s)
    (hf : IgnoresBytes f) (hg : IgnoresBytes g) : IgnoresBytes fun s => if c s then f s else g s := fun s => by
  simp only [apply_ite State.hideBytes, hc, hf s, hg s]

theorem IgnoresBytes.next {f : State → State} (h : IgnoresBytes f) : OutcomeIgnoresBytes fun s => .next (f s) :=
  fun s => congrArg Host.Outcome.next (h s)

theorem OutcomeIgnoresBytes.comp {f : State → Host.Outcome State Fault Refusal} {g : State → State}
    (hf : OutcomeIgnoresBytes f) (hg : IgnoresBytes g) : OutcomeIgnoresBytes fun s => f (g s) := fun s => by
  rw [← hf (g s.hideBytes), hg, hf]

theorem OutcomeIgnoresBytes.ite {c : State → Prop} [∀ s, Decidable (c s)] {f g : State → Host.Outcome State Fault Refusal}
    (hc : ∀ s, c s.hideBytes ↔ c s) (hf : OutcomeIgnoresBytes f) (hg : OutcomeIgnoresBytes g) :
    OutcomeIgnoresBytes fun s => if c s then f s else g s := fun s => by
  simp only [apply_ite hideOutcome, hc, hf s, hg s]

/-- From states that differ in byte values only, it leads to states that differ only so. -/
theorem OutcomeIgnoresBytes.next_of_next {f : State → Host.Outcome State Fault Refusal} (hf : OutcomeIgnoresBytes f)
    {s₁ s₂ t₁ : State} (h : s₁.hideBytes = s₂.hideBytes) (h₁ : f s₁ = .next t₁) :
    ∃ t₂, f s₂ = .next t₂ ∧ t₁.hideBytes = t₂.hideBytes := by
  have ho : hideOutcome (f s₂) = .next t₁.hideBytes := by rw [← hf s₂, ← h, hf s₁, h₁]; rfl
  cases h₂ : f s₂ with
  | next t₂ => exact ⟨t₂, rfl, (Host.Outcome.next.inj (h₂ ▸ ho)).symm⟩
  | fault r => rw [h₂] at ho; cases ho
  | refused r => rw [h₂] at ho; cases ho

/-! ## The shared operations -/

/-- `beginByte` puts the byte of SEQ on `treq` and does nothing else with it. -/
theorem ignoresBytes_beginByte : IgnoresBytes fun s => s.beginByte s.idx := fun s =>
  congrArg (fun x : State => { x with st := .setData, treq := .write s.params.dataAddr 0#8 }) (hideBytes_hideBytes s)

theorem ignoresBytes_memWrite (j : Half) (v : Byte) : IgnoresBytes (State.memWrite · j v) := fun s => by
  have hm : (s.hideBytes.memWrite j v).seq.hideBytes = (s.memWrite j v).seq.hideBytes :=
    (Memory.hideBytes_write s.seq j.toNat v v).symm
  calc (s.hideBytes.memWrite j v).hideBytes
      = { s.hideBytes.hideBytes with
          seq := (s.hideBytes.memWrite j v).seq.hideBytes, seqOld := (s.memWrite j v).seqOld } := rfl
    _ = (s.memWrite j v).hideBytes := by rw [hideBytes_hideBytes, hm]; rfl

theorem ignoresBytes_countDown {x : State → State} (hx : ∀ s, (x s).hideBytes = x s.hideBytes) :
    IgnoresBytes fun s => s.countDown (x s) :=
  .ite (fun _ => .rfl) (ignoresBytes_of_commutes fun _ => rfl) (ignoresBytes_of_commutes hx)

theorem ignoresBytes_reject : IgnoresBytes State.reject := ignoresBytes_of_commutes fun _ => rfl

theorem ignoresBytes_abandon : IgnoresBytes State.abandon :=
  .ite (fun _ => .rfl) (ignoresBytes_of_commutes fun _ => rfl) (ignoresBytes_of_commutes fun _ => rfl)

/-! ## The engine -/

/-- The byte of the answered write goes to the data register. -/
theorem ignoresBytes_stepSetData : IgnoresBytes stepSetData := ignoresBytes_of_commutes fun s => by
  have hq : s.hideBytes.treq = s.treq.hideBytes := rfl
  simp only [stepSetData, tresp_hideBytes, hq]
  cases s.treq <;> cases s.tresp <;> rfl

theorem ignoresBytes_pollReady : OutcomeIgnoresBytes pollReady :=
  .ite (fun _ => .rfl) (IgnoresBytes.next (ignoresBytes_of_commutes fun _ => rfl)) <|
    .ite (fun _ => .rfl)
      (IgnoresBytes.next (ignoresBytes_beginByte.comp (g := fun s => { s with idx := s.idx + 1#16 })
        (ignoresBytes_of_commutes fun _ => rfl)))
      fun _ => rfl

theorem ignoresBytes_pollUndecided : IgnoresBytes pollUndecided :=
  .ite (fun _ => .rfl) (ignoresBytes_of_commutes fun _ => rfl) (ignoresBytes_of_commutes fun _ => rfl)

/-- The status is the Transport's, so its classification is the same. -/
theorem ignoresBytes_pollAnswered (b : Byte) : OutcomeIgnoresBytes (pollAnswered · b) := fun s => by
  have hp : s.hideBytes.params = s.params := rfl
  have hrec : IgnoresBytes (State.recorded · b) := ignoresBytes_of_commutes fun _ => rfl
  simp only [pollAnswered, hp]
  cases classify s.params (decodeStatus s.params b) with
  | fault f =>
    have hd : IgnoresBytes (State.enterDecision · f.reasons) := ignoresBytes_of_commutes fun _ => rfl
    exact (hd.comp hrec).next s
  | ready => exact ignoresBytes_pollReady.comp hrec s
  | undecided => exact (ignoresBytes_pollUndecided.comp hrec).next s

theorem ignoresBytes_stepPoll : OutcomeIgnoresBytes stepPoll := fun s => by
  have hq : s.hideBytes.treq = s.treq.hideBytes := rfl
  simp only [stepPoll, tresp_hideBytes, hq]
  cases s.treq with
  | none | write => exact ignoresBytes_id.next s
  | read a =>
    cases s.tresp with
    | none | ok => exact ignoresBytes_id.next s
    | okByte b => exact ignoresBytes_pollAnswered b s
    | busErr =>
      exact (ignoresBytes_of_commutes (f := fun s => s.finish .busError 1#1 noFlags s.idx) fun _ => rfl).next s

theorem ignoresBytes_engineStep : OutcomeIgnoresBytes engineStep := fun s => by
  have hs : s.hideBytes.st = s.st := rfl
  simp only [engineStep, hs]
  cases s.st with
  | idle | faultWait | done => exact ignoresBytes_id.next s
  | setData => exact ignoresBytes_stepSetData.next s
  | settle => exact (ignoresBytes_countDown (x := State.enterStrobe) fun _ => rfl).next s
  | strobe => exact (ignoresBytes_countDown (x := State.enterRelease) fun _ => rfl).next s
  | release => exact (ignoresBytes_of_commutes (f := stepRelease) fun _ => rfl).next s
  | pollWait => exact (ignoresBytes_countDown (x := State.enterPoll) fun _ => rfl).next s
  | poll => exact ignoresBytes_stepPoll s

/-! ## The host -/

/-- A command is rejected by what is no byte (42_host_commands.md rule R149). -/
theorem IgnoresBytes.orReject {c : State → Prop} [∀ s, Decidable (c s)] {f : State → State} (hf : IgnoresBytes f)
    (hc : ∀ s, c s.hideBytes ↔ c s := by exact fun _ => .rfl) :
    OutcomeIgnoresBytes fun s => .next (if c s then f s else s.reject) :=
  (hf.ite hc ignoresBytes_reject).next

theorem ignoresBytes_execSend (n : Half) : OutcomeIgnoresBytes (execSend n) :=
  IgnoresBytes.orReject <| .ite (fun _ => .rfl) (ignoresBytes_of_commutes fun _ => rfl)
    (ignoresBytes_beginByte.comp (g := fun s => { s.loadTransfer n with res := noResult })
      (ignoresBytes_of_commutes fun _ => rfl))

theorem ignoresBytes_execSetle (pol : BitVec 2) : OutcomeIgnoresBytes (execSetle pol) := by
  unfold execSetle
  cases LinePolicy.ofBits pol with
  | none => exact ignoresBytes_reject.next
  | some p => exact IgnoresBytes.orReject (ignoresBytes_of_commutes fun _ => rfl)

theorem ignoresBytes_exec (i : Instr) : OutcomeIgnoresBytes (exec i) := by
  cases i with
  | nop => exact ignoresBytes_id.next
  | send n => exact ignoresBytes_execSend n
  | retry => exact IgnoresBytes.orReject (ignoresBytes_of_commutes fun _ => rfl)
  | abort => exact IgnoresBytes.orReject ignoresBytes_abandon
  | setle pol => exact ignoresBytes_execSetle pol
  | ack => exact IgnoresBytes.orReject (ignoresBytes_of_commutes fun _ => rfl)
  | wrbuf a v => exact IgnoresBytes.orReject (ignoresBytes_memWrite a v)

theorem ignoresBytes_command (w : Word) : OutcomeIgnoresBytes (command w) := by
  unfold command
  cases decode w with
  | ok i => exact ignoresBytes_exec i
  | error r => exact ignoresBytes_reject.next

theorem ignoresBytes_hostAccess (acc : HostAccess) : OutcomeIgnoresBytes (hostAccess acc) := by
  cases acc with
  | none | read a => exact ignoresBytes_id.next
  | write a w => exact .ite (fun _ => .rfl) (ignoresBytes_command w) ignoresBytes_reject.next

/-- Settles O58: the inputs and `st` are the same, so the cycle is of the same kind, and its parts ignore the bytes. -/
theorem byteValuesDecideNothing : Obligations.ByteValuesDecideNothing := by
  intro s₁ s₂ t₁ h hst
  have hp : s₁.pins = s₂.pins := (congrArg State.pins h :)
  have hs : s₁.st = s₂.st := (congrArg State.st h :)
  obtain ⟨x₁, hx₁⟩ := hostAccess_next s₁.pins.access s₁
  obtain ⟨x₂, hx₂, hx⟩ := (ignoresBytes_hostAccess _).next_of_next h hx₁
  rw [hp] at hx₂
  obtain ⟨hr, ht⟩ | ⟨hr, hi, _⟩ | ⟨hr, hi, e₁, _, he₁, _⟩ := step_cases hst
  · subst ht
    exact ⟨_, step_reset (hp ▸ hr), by simp only [tick_hideBytes, resetElements_hideBytes, h]⟩
  · rw [step_inert hr hi hx₁] at hst
    cases hst
    exact ⟨_, step_inert (hp ▸ hr) (hs ▸ hi) hx₂, by rw [tick_hideBytes, tick_hideBytes, h, hx]⟩
  · rw [step_active_command hr hi hx₁ he₁] at hst
    cases hst
    obtain ⟨e₂, he₂, he⟩ := ignoresBytes_engineStep.next_of_next h he₁
    have hj : ({ e₁ with rej := x₁.rej } : State).hideBytes = ({ e₂ with rej := x₂.rej } : State).hideBytes :=
      (congrArg₂ (fun e x : State => { e with rej := x.rej }) he hx :)
    exact ⟨_, step_active_command (hp ▸ hr) (hs ▸ hi) hx₂ he₂, by rw [tick_hideBytes, tick_hideBytes, h, hj]⟩

end Sys2Proof.Machine
end

section
/-! The rules of the engine's states (41_handshake_engine.md rules R113 to R124), one equation for each answer and each count. -/
namespace Sys2Proof.Machine

/-! ## SET_DATA (R113) -/

section
variable {s : State} {a : Nat} {v : Byte} (hs : s.st = .setData) (hq : s.treq = .write a v)
include hs hq

theorem engineStep_of_write_ok (ht : s.tresp = .ok) :
    engineStep s = .next { s with dataQ := some v, treq := .none }.enterSettle := by
  simp only [engineStep, hs, stepSetData, hq, ht]

theorem engineStep_of_write_failed (ht : s.tresp = .busErr) :
    engineStep s = .next (s.finish .busError 0#1 noFlags s.idx) := by
  simp only [engineStep, hs, stepSetData, hq, ht]

end

/-- Settles O29: an answer of each kind has its own equation. -/
theorem setDataAnswered : Obligations.SetDataAnswered := fun _ _ _ hs hq =>
  ⟨engineStep_of_silence (.inl hs), engineStep_of_write_ok hs hq, engineStep_of_write_failed hs hq⟩

/-! ## The timed states and RELEASE (R114 to R119) -/

/-- `x` is the exit action of the timed state `st` (R114, R116 and R119). -/
def ExitAction (st : EngineState) (x : State → State) : Prop :=
  st = .settle ∧ x = State.enterStrobe ∨ st = .strobe ∧ x = State.enterRelease ∨ st = .pollWait ∧ x = State.enterPoll

theorem exists_exitAction {st : EngineState} (h : st = .settle ∨ st = .strobe ∨ st = .pollWait) : ∃ x, ExitAction st x := by
  obtain h | h | h := h
  · exact ⟨_, .inl ⟨h, rfl⟩⟩
  · exact ⟨_, .inr (.inl ⟨h, rfl⟩)⟩
  · exact ⟨_, .inr (.inr ⟨h, rfl⟩)⟩

theorem engineStep_timed {s : State} {x : State → State} (hx : ExitAction s.st x) :
    engineStep s = .next (s.countDown (x s)) := by
  obtain ⟨hs, rfl⟩ | ⟨hs, rfl⟩ | ⟨hs, rfl⟩ := hx <;> simp only [engineStep, hs] <;> rfl

theorem countDown_of_more {s : State} (h : 1 < s.cnt.toNat) (x : State) : s.countDown x = { s with cnt := s.cnt - 1#16 } :=
  if_pos h

theorem countDown_of_last {s : State} (h : s.cnt.toNat ≤ 1) (x : State) : s.countDown x = x :=
  if_neg (Nat.not_lt.mpr h)

/-- Settles O30: `countDown` by its two cases, with the exit action of the state. -/
theorem timedStatesCountDown : Obligations.TimedStatesCountDown := by
  refine fun s => ⟨fun hs hc => ?_, fun hs hc => ?_, fun hs hc => ?_, fun hs => ?_, fun hs hc => ?_⟩
  · obtain ⟨x, hx⟩ := exists_exitAction hs
    rw [engineStep_timed hx, countDown_of_more hc]
  · rw [engineStep_timed (.inl ⟨hs, rfl⟩), countDown_of_last hc]
    rfl
  · rw [engineStep_timed (.inr (.inl ⟨hs, rfl⟩)), countDown_of_last hc]
    rfl
  · rw [engineStep, hs]
    rfl
  · rw [engineStep_timed (.inr (.inr ⟨hs, rfl⟩)), countDown_of_last hc]
    rfl

/-! ## POLL (R120 to R124) -/

theorem engineStep_of_read_failed {s : State} {a : Nat} (hs : s.st = .poll) (hq : s.treq = .read a) (ht : s.tresp = .busErr) :
    engineStep s = .next (s.finish .busError 1#1 noFlags s.idx) := by
  simp only [engineStep, hs, stepPoll, hq, ht]

section
variable {s : State} {a : Nat} {b : Byte} (hs : s.st = .poll) (hq : s.treq = .read a) (ht : s.tresp = .okByte b)
include hs hq ht

theorem engineStep_of_fault {f : DeviceFlags} (hc : classify s.params (decodeStatus s.params b) = .fault f) :
    engineStep s = .next ((s.recorded b).enterDecision f.reasons) := by
  simp only [engineStep, hs, stepPoll, hq, ht, pollAnswered, hc]
  rfl

theorem engineStep_of_ready (hc : classify s.params (decodeStatus s.params b) = .ready) :
    engineStep s = pollReady (s.recorded b) := by
  simp only [engineStep, hs, stepPoll, hq, ht, pollAnswered, hc]
  rfl

theorem engineStep_of_undecided (hc : classify s.params (decodeStatus s.params b) = .undecided) :
    engineStep s = .next (pollUndecided (s.recorded b)) := by
  simp only [engineStep, hs, stepPoll, hq, ht, pollAnswered, hc]
  rfl

end

/-- Settles O32: silence, a failed read and a FAULT each have their own equation (`pollAnswered` is the model's function). -/
theorem pollAnswered_rules : Obligations.PollAnswered := fun _ _ hs hq =>
  ⟨engineStep_of_silence (.inr hs), engineStep_of_read_failed hs hq, fun _ _ ht hc => engineStep_of_fault hs hq ht hc⟩

/-! ### READY (R122) -/

theorem pollReady_of_last {s : State} (h : s.idx + 1#16 = s.len) :
    pollReady s = .next ({ s with idx := s.idx + 1#16 }.finish .ok 0#1 noFlags s.len) := if_pos h

theorem pollReady_of_more {s : State} (h : s.idx + 1#16 ≠ s.len) (hf : s.indexFits (s.idx + 1#16) = true) :
    pollReady s = .next ({ s with idx := s.idx + 1#16 }.beginByte (s.idx + 1#16)) := (if_neg h).trans (if_pos hf)

/-- Settles O33: the next index is `idx + 1` as a number, so it is `len` or an index of SEQ. -/
theorem pollReadyAdvances : Obligations.PollReadyAdvances := by
  intro s a b hs hq ht hc hlt hlen
  have hk : (s.idx + 1#16).toNat = s.idx.toNat + 1 := idx_succ_toNat hlt
  have hlt : s.idx.toNat < s.len.toNat := hlt
  rw [engineStep_of_ready hs hq ht hc]
  refine ⟨fun hl => pollReady_of_last (BitVec.eq_of_toNat_eq (hk.trans hl)), fun hl => ⟨s.memRead (s.idx + 1#16), ?_, ?_⟩⟩
  · exact fun c hknown => memRead_of_known (hk ▸ hknown)
  · exact pollReady_of_more (s := s.recorded b) (fun e => hl (hk ▸ congrArg BitVec.toNat e))
      ((indexFits_iff _ _).mpr (show (s.idx + 1#16).toNat < s.params.seqMax.toNat by omega))

/-! ### UNDECIDED (R123 and R124) -/

/-- `p' = min(polls + 1, 65535)`. -/
theorem nextPolls_toNat (p : Half) : (nextPolls p).toNat = min (p.toNat + 1) 65535 := by
  unfold nextPolls
  split
  · next h => subst h; rfl
  · next h =>
    have hp : p.toNat ≠ 65535 := fun e => h (BitVec.eq_of_toNat_eq e)
    have := p.isLt
    rw [BitVec.toNat_add, BitVec.toNat_ofNat]
    omega

theorem boundReached_iff (p : Params) (n : Half) :
    boundReached p n = true ↔ p.maxPolls ≠ 0#16 ∧ p.maxPolls.toNat ≤ n.toNat := by
  simp [boundReached, BitVec.le_def]

theorem boundReached_eq_false_iff (p : Params) (n : Half) :
    boundReached p n = false ↔ p.maxPolls = 0#16 ∨ n.toNat < p.maxPolls.toNat := by
  rw [← Bool.not_eq_true, boundReached_iff, not_and_or, not_not, Nat.not_le]

theorem pollUndecided_of_below {s : State} (h : boundReached s.params (nextPolls s.polls) = false) :
    pollUndecided s = s.enterPollWait (nextPolls s.polls) := if_neg (Bool.eq_false_iff.mp h)

theorem pollUndecided_of_reached {s : State} (h : boundReached s.params (nextPolls s.polls) = true) :
    pollUndecided s = { s with polls := nextPolls s.polls }.enterDecision timeoutReasons := if_pos h

/-- Settles O34: `p'` is `nextPolls`, and the bound decides between the two outcomes. -/
theorem pollUndecidedOrTimeout : Obligations.PollUndecidedOrTimeout := by
  intro s a b p hs hq ht hc hp
  obtain rfl : p = nextPolls s.polls := BitVec.eq_of_toNat_eq (hp.trans (nextPolls_toNat s.polls).symm)
  rw [engineStep_of_undecided hs hq ht hc]
  refine ⟨fun hb => ?_, fun hm hb => ?_⟩
  · rw [pollUndecided_of_below (s := s.recorded b) ((boundReached_eq_false_iff _ _).mpr hb)]
    rfl
  · rw [pollUndecided_of_reached (s := s.recorded b) ((boundReached_iff _ _).mpr ⟨hm, hb⟩)]
    rfl

end Sys2Proof.Machine
end

section
/-! The cycle (41_handshake_engine.md rule R110), the inert states (R125), and how a transfer and a byte end and begin (R112 and
R127). -/
namespace Sys2Proof.Machine

/-! ## The cycle (R110) -/

/-- Settles O27: by the three kinds of cycle; the engine's frame is `engineStep_keeps`, the host's `step_active`. -/
theorem cycleJoinsEngineAndHost : Obligations.CycleJoinsEngineAndHost := by
  refine ⟨fun s => step_reset, fun s h hr hi hh => ⟨engineStep_inert hi, step_inert hr hi hh⟩, fun s e hr hi he => ?_⟩
  have k := engineStep_keeps he
  refine ⟨⟨k.rej, k.policy, k.seq, k.seqOld⟩, ?_⟩
  obtain ⟨r, ⟨ha, hj⟩ | ⟨ha, hj⟩, hst⟩ := step_active hr hi he
  · rw [hj, ← k.rej] at hst
    exact .inl ⟨ha, hst⟩
  · rw [hj] at hst
    exact .inr ⟨ha, hst⟩

/-! ## The inert states (R125) -/

/-- The state with other offers of the Transport in the coming cycles. -/
def State.withTrespIn (s : State) (l : List Tresp) : State := { s with trespIn := l }

/-- A command does the same whatever the Transport offers. -/
theorem commandState_withTrespIn (i : Instr) (s : State) (l : List Tresp) :
    commandState i (s.withTrespIn l) = (commandState i s).withTrespIn l := by
  cases i with
  | nop => rfl
  | send n =>
    simp only [commandState, exec, execSend, apply_ite (State.withTrespIn · l)]
    rfl
  | retry | ack | wrbuf =>
    simp only [commandState, exec, execRetry, execAck, execWrbuf, apply_ite (State.withTrespIn · l)]
    rfl
  | abort =>
    simp only [commandState, exec, execAbort, State.abandon, apply_ite (State.withTrespIn · l)]
    rfl
  | setle pol =>
    simp only [commandState, exec, execSetle]
    cases LinePolicy.ofBits pol with
    | none => rfl
    | some p =>
      simp only [apply_ite (State.withTrespIn · l)]
      rfl

theorem command_withTrespIn {w : Word} {s x : State} (h : command w s = .next x) (l : List Tresp) :
    command w (s.withTrespIn l) = .next (x.withTrespIn l) := by
  unfold command at h ⊢
  cases hd : decode w with
  | error r =>
    rw [hd] at h
    cases h
    rfl
  | ok i =>
    simp only [hd, exec_eq_commandState, Host.Outcome.next.injEq] at h ⊢
    rw [commandState_withTrespIn, h]

theorem hostAccess_withTrespIn {acc : HostAccess} {s x : State} (h : hostAccess acc s = .next x) (l : List Tresp) :
    hostAccess acc (s.withTrespIn l) = .next (x.withTrespIn l) := by
  cases acc with
  | none | read a =>
    cases h
    rfl
  | write a w =>
    simp only [hostAccess, hostWrite] at h ⊢
    split at h
    · exact (if_pos ‹_›).trans (command_withTrespIn h l)
    · cases h
      exact if_neg ‹_›

/-- Settles O35: in an inert state a step is the reset or the host access, and neither reads the Transport's offers. -/
theorem inertStatesWait : Obligations.InertStatesWait := by
  intro s hs
  have hi := (inert_iff _).mpr hs
  refine ⟨engineStep_inert hi, fun t hst hne => ?_, fun t answers hst => ?_⟩
  · cases step_what hst with
    | reset hr ht => exact .inl hr
    | quiet hr _ hj ht => subst ht; exact absurd rfl hne
    | rejected hr _ hj ht => subst ht; exact absurd rfl hne
    | command i x hr _ hn hw ha hx hj ht => exact .inr ⟨i, hw, ha⟩
    | engine e r hr ha he hj ht => rw [hi] at ha; cases ha
  · obtain ⟨hr, rfl⟩ | ⟨hr, _, x, hx, rfl⟩ | ⟨_, ha, _⟩ := step_cases hst
    · exact ⟨_, step_reset hr, rfl⟩
    · exact ⟨_, step_inert hr hi (hostAccess_withTrespIn hx answers), rfl⟩
    · rw [hi] at ha
      cases ha

/-! ## Timed states (R111) -/

theorem timedCycles_cases {p : Params} {st : EngineState} {c : Count} (h : timedCycles p st = some c) :
    (st = .settle ∧ c = p.settleCycles) ∨ (st = .strobe ∧ c = p.strobeCycles) ∨ (st = .pollWait ∧ c = p.pollCycles) := by
  cases st <;> simp_all [timedCycles]

/-- The engine enters a timed state with a full `cnt`. -/
theorem EngineCase.cnt_of_entry {s e : State} {c : Count} (hc : EngineCase s e) (hne : e.st ≠ s.st)
    (ht : timedCycles e.params e.st = some c) : e.cnt = c.val := by
  cases hc with
  | writeOk _ _ _ _ _ he => subst he; exact congrArg Count.val (Option.some.inj ht)
  | strobeOn _ _ he => subst he; exact congrArg Count.val (Option.some.inj ht)
  | released _ he => subst he; exact congrArg Count.val (Option.some.inj ht)
  | pollAgain _ _ _ _ _ _ _ he => subst he; exact congrArg Count.val (Option.some.inj ht)
  | waiting _ he => subst he; exact absurd rfl hne
  | counting _ _ he => subst he; exact absurd rfl hne
  | _ => subst e; cases ht

/-- RETRY enters POLL_WAIT with a full `cnt`. -/
theorem CommandCase.cnt_of_entry {s x : State} {i : Instr} {c : Count} (hc : CommandCase s x i) (hne : x.st ≠ s.st)
    (ht : timedCycles x.params x.st = some c) : x.cnt = c.val := by
  cases hc with
  | retry _ he => subst he; exact congrArg Count.val (Option.some.inj ht)
  | setle _ _ _ _ he => subst he; exact absurd rfl hne
  | wrbuf _ _ _ _ he => subst he; exact absurd rfl hne
  | _ => subst x; cases ht

theorem cnt_of_entry {s t : State} {c : Count} (hr : s.pins.rst = false) (hst : step s = .next t) (hne : t.st ≠ s.st)
    (ht : timedCycles t.params t.st = some c) : t.cnt = c.val := by
  cases step_cause hst with
  | reset hr' _ => rw [hr] at hr'; cases hr'
  | waits r _ _ he => subst he; exact absurd rfl hne
  | command i x _ _ _ _ hc he => subst he; exact hc.cnt_of_entry hne ht
  | engine e r _ _ _ hc he => subst he; exact hc.cnt_of_entry hne ht

theorem timed_of_timedCycles {p : Params} {st : EngineState} {c : Count} (h : timedCycles p st = some c) :
    st = .settle ∨ st = .strobe ∨ st = .pollWait := by
  obtain ⟨h, _⟩ | ⟨h, _⟩ | ⟨h, _⟩ := timedCycles_cases h <;> simp [h]

/-- An exit action leads to the state after, with a full `cnt` if that is timed too. -/
theorem ExitAction.leads {p : Params} {st : EngineState} {x : State → State} {u : State} (hx : ExitAction st x)
    (hu : u.params = p) :
    (x u).st = st.afterTimed ∧ ∀ d, timedCycles p (x u).st = some d → (x u).cnt = d.val := by
  subst hu
  obtain ⟨rfl, rfl⟩ | ⟨rfl, rfl⟩ | ⟨rfl, rfl⟩ := hx
  · exact ⟨rfl, fun d hd => congrArg Count.val (Option.some.inj hd)⟩
  · exact ⟨rfl, nofun⟩
  · exact ⟨rfl, nofun⟩

theorem ExitAction.keeps {st : EngineState} {x : State → State} (hx : ExitAction st x) (u : State) :
    (x u).idx = u.idx ∧ (x u).polls = u.polls := by
  obtain ⟨_, rfl⟩ | ⟨_, rfl⟩ | ⟨_, rfl⟩ := hx <;> exact ⟨rfl, rfl⟩

section
variable {s : State} {c : Count} (hc : timedCycles s.params s.st = some c) (hcnt : s.cnt = c.val)
  (hn : s.noResetFor c.toNat)
include hc hcnt hn

/-- The engine is in a timed state for its whole duration. -/
theorem run_in_timed (k : Nat) (hk : k < c.toNat) :
    ∃ t, Sys2Proof.core.run k s = .next t ∧ t.st = s.st ∧ t.strobeQ = s.strobeQ := by
  obtain ⟨t, ht, _, hst, _, _, _, hq⟩ := run_counting (timed_of_timedCycles hc) k (hcnt ▸ hk) (noResetFor_mono hn hk.le)
  exact ⟨t, ht, hst, hq⟩

/-- At the end of its duration the engine has just entered the state of the exit action. -/
theorem run_through_timed : ∃ t, Sys2Proof.core.run c.toNat s = .next t ∧ After c.toNat s t ∧ t.idx = s.idx ∧
    t.polls = s.polls ∧ t.st = s.st.afterTimed ∧ ∀ d, timedCycles s.params t.st = some d → t.cnt = d.val := by
  obtain ⟨x, hx⟩ := exists_exitAction (timed_of_timedCycles hc)
  obtain ⟨u, t, ht, ha, hu, hidx, hpolls, hst, hidx', hcnt', hpolls', _⟩ :=
    run_timed hx (congrArg BitVec.toNat hcnt) (one_le_count c) hn
  obtain ⟨hafter, hfull⟩ := hx.leads hu
  obtain ⟨hki, hkp⟩ := hx.keeps u
  refine ⟨t, ht, ha, hidx'.trans (hki.trans hidx), hpolls'.trans (hkp.trans hpolls), hst.trans hafter, ?_⟩
  rw [hst, hcnt']
  exact hfull

end

/-- Settles O31: the entry by `cnt_of_entry`, the stay by `run_in_timed`, the exit by `run_through_timed`. -/
theorem timedStateLastsItsCount : Obligations.TimedStateLastsItsCount :=
  ⟨fun _ _ _ => cnt_of_entry, fun _ _ hc hcnt hn =>
    ⟨run_in_timed hc hcnt hn, (run_through_timed hc hcnt hn).imp fun _ ⟨ht, _, _, _, hst, _⟩ => ⟨ht, hst⟩⟩⟩

/-! ## How a transfer ends (R127) -/

/-- Of the commands, only ABORT ends a transfer. -/
theorem CommandCase.ends_transfer {s x : State} {i : Instr} (hc : CommandCase s x i) (hs : s.st.inTransfer = true)
    (hx : x.st = .done) : i = .abort ∧ (x.res.code = .deviceFault ∨ x.res.code = .timeout) ∧ x.res.ridx = s.idx := by
  have hb : ¬ s.st.betweenTransfers = true := Bool.eq_false_iff.mp (by simpa [EngineState.inTransfer] using hs)
  cases hc with
  | abortTimeout _ _ he => subst he; exact ⟨rfl, .inr rfl, rfl⟩
  | abortFault _ _ he => subst he; exact ⟨rfl, .inl rfl, rfl⟩
  | retry _ he => subst he; cases hx
  | sendEmpty h _ => exact absurd h hb
  | sendBytes _ h _ _ _ => exact absurd h hb
  | setle _ _ _ h _ => exact absurd h hb
  | ack h _ => exact absurd h hb
  | wrbuf _ _ h _ _ => exact absurd h hb

/-- The engine ends a transfer by the READY poll of its last byte, or by a failed answer. -/
theorem EngineCase.ends_transfer {s e : State} (hc : EngineCase s e) (hi : s.st.inert = false) (hx : e.st = .done) :
    (s.st = .poll ∧ (∃ b, s.tresp = .okByte b ∧ classify s.params (decodeStatus s.params b) = .ready) ∧
      e.res = ⟨.ok, 0#1, noFlags, s.len⟩ ∧ e.idx = s.len) ∨
    (s.tresp = .busErr ∧ e.res.code = .busError ∧ e.res.ridx = s.idx) := by
  cases hc with
  | writeFailed _ _ _ _ ht he => subst he; exact .inr ⟨ht, rfl, rfl⟩
  | readFailed _ _ _ ht he => subst he; exact .inr ⟨ht, rfl, rfl⟩
  | pollLast _ b hs _ ht hc hl he => subst he; exact .inl ⟨hs, ⟨b, ht, hc⟩, rfl, hl⟩
  | waiting _ he => subst he; rw [hx] at hi; cases hi
  | counting _ _ he => subst he; rw [show s.st = .done from hx] at hi; cases hi
  | _ => subst e; cases hx

/-- Settles O42: a reset leads to IDLE, and what waits keeps `st`; the rest is the commands' and the engine's ends. -/
theorem transferEnds : Obligations.TransferEnds := by
  intro s t h hst hs hd
  cases step_cause hst with
  | reset _ ht => subst ht; cases hd
  | waits r _ _ ht =>
    subst ht
    exact absurd hd ((inTransfer_iff _).mp hs).2
  | command i x _ _ hw _ hc ht =>
    subst ht
    obtain ⟨rfl, hcode, hridx⟩ := hc.ends_transfer hs hd
    exact .inr (.inr ⟨hw, hcode, hridx⟩)
  | engine e r hr hi _ hc ht =>
    subst ht
    obtain ⟨hp, ⟨b, hb, hready⟩, hres, hidx⟩ | hfail := hc.ends_transfer hi hd
    · exact .inl ⟨(seesReady_iff s).mpr ⟨hr, hp, h.reqRead hp, b, hb, hready⟩, hres, hidx⟩
    · exact .inr (.inl hfail)

/-! ## How a byte begins (R112) -/

theorem CommandCase.params_eq {s x : State} {i : Instr} (hc : CommandCase s x i) : x.params = s.params := by
  cases hc <;> subst x <;> rfl

theorem step_params {s t : State} (hst : step s = .next t) : t.params = s.params := by
  cases step_cause hst with
  | reset _ ht => subst ht; rfl
  | waits r _ _ ht => subst ht; rfl
  | command i x _ _ _ _ hc ht => subst ht; exact hc.params_eq
  | engine e r _ _ he _ ht => subst ht; exact (engineStep_keeps he).params

theorem CommandCase.begins_byte {s x : State} {i : Instr} (hc : CommandCase s x i) (hx : x.st = .setData)
    (hne : s.st ≠ .setData) : ∃ n, i = .send n ∧ x.idx = 0#16 := by
  cases hc with
  | sendBytes n _ _ _ he => subst he; exact ⟨n, rfl, rfl⟩
  | setle _ _ _ _ he => subst he; exact absurd hx hne
  | wrbuf _ _ _ _ he => subst he; exact absurd hx hne
  | _ => subst x; cases hx

theorem EngineCase.begins_byte {s e : State} (hc : EngineCase s e) (hx : e.st = .setData) (hne : s.st ≠ .setData) :
    s.st = .poll ∧ (∃ b, s.tresp = .okByte b ∧ classify s.params (decodeStatus s.params b) = .ready) ∧
      e.idx = s.idx + 1#16 := by
  cases hc with
  | pollNext _ b hs _ ht hc _ _ he => subst he; exact ⟨hs, ⟨b, ht, hc⟩, rfl⟩
  | waiting _ he => subst he; exact absurd hx hne
  | counting _ _ he => subst he; exact absurd hx hne
  | _ => subst e; cases hx

theorem step_begins_byte {s t : State} (h : s.Inv) (hst : step s = .next t) (hx : t.st = .setData) (hne : s.st ≠ .setData) :
    (s.startsTransfer = true ∧ t.idx = 0#16) ∨ (s.seesReady = true ∧ t.idx.toNat = s.idx.toNat + 1) := by
  cases step_cause hst with
  | reset _ ht => subst ht; cases hx
  | waits r _ _ ht => subst ht; exact absurd hx hne
  | command i x _ _ hw ha hc ht =>
    subst ht
    obtain ⟨n, rfl, hidx⟩ := hc.begins_byte hx hne
    exact .inl ⟨(startsTransfer_iff s).mpr ⟨n, hw, ha⟩, hidx⟩
  | engine e r hr _ _ hc ht =>
    subst ht
    obtain ⟨hp, ⟨b, hb, hready⟩, hidx⟩ := hc.begins_byte hx hne
    refine .inr ⟨(seesReady_iff s).mpr ⟨hr, hp, h.reqRead hp, b, hb, hready⟩, ?_⟩
    exact (congrArg BitVec.toNat hidx).trans (idx_succ_toNat (h.working hp rfl).1)

/-- Settles O51: the byte requested is the `treq` column of R45, which the step keeps. -/
theorem byteBegunBySendOrReady : Obligations.ByteBegunBySendOrReady := by
  intro s t h hst hx hne
  obtain ⟨v, hq, hv⟩ := (inv_of_step h hst).reqWrite hx
  rw [step_params hst] at hq
  exact ⟨step_begins_byte h hst hx hne, v, hq, hv⟩

end Sys2Proof.Machine
end

section
/-! The cycle timeline of a byte and of a transfer (41_handshake_engine.md rule R126, 70_reset_and_hazards.md rule R204): a
run without reset goes from checkpoint to checkpoint, the entry of each state of the byte. -/
namespace Sys2Proof.Machine

/-! ## Checkpoints of a run -/

theorem inv_of_run {s t : State} (h : s.Inv) {n : Nat} (ht : Sys2Proof.core.run n s = .next t) : t.Inv := by
  induction n generalizing s with
  | zero =>
    cases ht
    exact h
  | succ n ih =>
    obtain ⟨u, hu⟩ := invariantStatesAlwaysStep s h
    rw [run_succ hu] at ht
    exact ih (inv_of_step h hu) ht

/-- `n` cycles of the engine lead from `s` to `t`, still at the same byte. -/
structure Reaches (n : Nat) (s t : State) : Prop where
  run   : Sys2Proof.core.run n s = .next t
  after : After n s t
  idx   : t.idx = s.idx

theorem Reaches.trans {m n : Nat} {s t u : State} (h : Reaches m s t) (h' : Reaches n t u) : Reaches (m + n) s u :=
  ⟨(run_add m n h.run).trans h'.run, h.after.trans h'.after, h'.idx.trans h.idx⟩

/-- The engine is in the state `st` in the `n` cycles from `s` on. -/
def State.staysIn (s : State) (n : Nat) (st : EngineState) : Prop :=
  ∀ k, k < n → ∃ t, Sys2Proof.core.run k s = .next t ∧ t.st = st

theorem Reaches.run_of_staysIn {m n : Nat} {s u : State} {st : EngineState} (h : Reaches m s u) (hu : u.staysIn n st) (k : Nat)
    (hk : k < n) : ∃ t, Sys2Proof.core.run (m + k) s = .next t ∧ t.st = st := by
  rw [run_add m k h.run]
  exact hu k hk

/-- The Transport's offers past the ones used up. -/
theorem After.trespIn_rest {n : Nat} {s t : State} {l rest : List Tresp} (h : After n s t) (hl : s.trespIn = l ++ rest)
    (hn : l.length = n) : t.trespIn = rest := by
  rw [h.trespIn, hl, List.drop_left' hn]

/-! ## The lengths of the scripts -/

theorem PollScript.offers_length {p : Params} {c : Classification} {r : PollScript} (h : r.endsAs p c) :
    r.offers.length = r.cycles p := by
  simp [PollScript.offers, PollScript.cycles, h.1]

theorem flatMap_offers_length {p : Params} {rs : List PollScript} (h : ∀ r ∈ rs, ∃ c, r.endsAs p c) :
    (rs.flatMap PollScript.offers).length = roundCycles p rs := by
  rw [List.length_flatMap, roundCycles]
  exact congrArg List.sum (List.map_congr_left fun r hr => (h r hr).elim fun _ => PollScript.offers_length)

theorem roundCycles_append (p : Params) (rs rs' : List PollScript) :
    roundCycles p (rs ++ rs') = roundCycles p rs + roundCycles p rs' := by
  simp [roundCycles]

theorem roundCycles_cons (p : Params) (r : PollScript) (rs : List PollScript) :
    roundCycles p (r :: rs) = r.cycles p + roundCycles p rs := by
  simp [roundCycles]

theorem scriptCycles_append (p : Params) (bs bs' : List ByteScript) :
    scriptCycles p (bs ++ bs') = scriptCycles p bs + scriptCycles p bs' := by
  simp [scriptCycles]

theorem scriptCycles_cons (p : Params) (b : ByteScript) (bs : List ByteScript) :
    scriptCycles p (b :: bs) = b.cycles p + scriptCycles p bs := by
  simp [scriptCycles]

/-- Every round of a script that plays has an end. -/
theorem ByteScript.plays.rounds_end {p : Params} {b : ByteScript} (h : b.plays p) : ∀ r ∈ b.rounds, ∃ c, r.endsAs p c := by
  obtain ⟨_, hu, hlast, _⟩ := h
  intro r hr
  rcases List.mem_append.mp hr with hr | hr
  · exact ⟨_, hu r hr⟩
  · exact ⟨_, List.mem_singleton.mp hr ▸ hlast⟩

/-- The offers before the first poll round. -/
def ByteScript.head (b : ByteScript) : List Tresp := List.replicate b.late .none ++ [.ok] ++ b.filler

theorem ByteScript.offers_eq (b : ByteScript) : b.offers = b.head ++ b.rounds.flatMap PollScript.offers := rfl

theorem ByteScript.plays.head_length {p : Params} {b : ByteScript} (h : b.plays p) : b.head.length = b.pollsStart p := by
  simp [ByteScript.head, ByteScript.pollsStart, h.1]
  omega

theorem ByteScript.plays.offers_length {p : Params} {b : ByteScript} (h : b.plays p) : b.offers.length = b.cycles p := by
  rw [b.offers_eq, List.length_append, h.head_length, flatMap_offers_length h.rounds_end, ByteScript.cycles]

/-! ## A request until its answer -/

section
variable {s : State} {late : Nat} {r : Tresp} {rest : List Tresp} (hl : s.trespIn = List.replicate late .none ++ r :: rest)
include hl

theorem staysIn_of_request (hs : s.st = .setData ∨ s.st = .poll) (hn : s.noResetFor late) : s.staysIn (late + 1) s.st := by
  intro k hk
  have hsplit : s.trespIn = List.replicate k .none ++ (List.replicate (late - k) .none ++ r :: rest) := by
    rw [hl, ← List.append_assoc, List.replicate_append_replicate, Nat.add_sub_cancel' (Nat.lt_succ_iff.mp hk)]
  obtain ⟨t, ht, _, hst, _⟩ := run_waiting hs k _ hsplit (noResetFor_mono hn (Nat.lt_succ_iff.mp hk))
  exact ⟨t, ht, hst⟩

/-- In the last cycle of the request its answer is in hand. -/
theorem reaches_answer (h : s.Inv) (hs : s.st = .setData ∨ s.st = .poll) (ha : s.treq.allows r = true)
    (hn : s.noResetFor late) :
    ∃ t, Reaches late s t ∧ t.st = s.st ∧ t.polls = s.polls ∧ t.treq = s.treq ∧ t.tresp = r := by
  have hq : s.treq ≠ .none := by
    rcases hs with hs | hs
    · obtain ⟨v, hq, _⟩ := h.reqWrite hs
      rw [hq]
      nofun
    · rw [h.reqRead hs]
      nofun
  obtain ⟨t, ht, haf, hst, hidx, hpolls, _, htq, hrest⟩ := run_waiting hs late _ hl hn
  exact ⟨t, ⟨ht, haf, hidx⟩, hst, hpolls, htq, tresp_of_head (htq ▸ hq) hrest (htq ▸ ha)⟩

end

/-! ## Timed states -/

/-- `s` is at the entry of the state `st`: if that is timed, its whole duration is to come (41_handshake_engine.md rule R111). -/
def State.enters (s : State) (st : EngineState) : Prop :=
  s.st = st ∧ ∀ c, timedCycles s.params st = some c → s.cnt = c.val

theorem enters_of_untimed {s : State} {st : EngineState} (hs : s.st = st) (h : ∀ p, timedCycles p st = none) : s.enters st :=
  ⟨hs, fun _ hc => absurd ((h _).symm.trans hc) nofun⟩

section
variable {s : State} {st : EngineState} {c : Count} (hs : s.enters st) (hc : timedCycles s.params st = some c)
  (hn : s.noResetFor c.toNat)
include hs hc hn

theorem State.enters.staysIn : s.staysIn c.toNat st := by
  intro k hk
  obtain ⟨rfl, hcnt⟩ := hs
  obtain ⟨t, ht, hst, _⟩ := run_in_timed hc (hcnt c hc) hn k hk
  exact ⟨t, ht, hst⟩

theorem State.enters.reaches_exit : ∃ t, Reaches c.toNat s t ∧ t.enters st.afterTimed ∧ t.polls = s.polls := by
  obtain ⟨rfl, hcnt⟩ := hs
  obtain ⟨t, ht, ha, hidx, hpolls, hst, hfull⟩ := run_through_timed hc (hcnt c hc) hn
  exact ⟨t, ⟨ht, ha, hidx⟩, ⟨hst, fun d hd => hfull d (by rw [hst, ← ha.params]; exact hd)⟩, hpolls⟩

end

/-! ## From SET_DATA to the polls -/

section
variable {s : State} {b : ByteScript} {rest : List Tresp} (hl : s.trespIn = b.offers ++ rest)
include hl

theorem trespIn_of_offers : s.trespIn =
    List.replicate b.late .none ++ .ok :: (b.filler ++ b.rounds.flatMap PollScript.offers ++ rest) := by
  simp [hl, ByteScript.offers]

theorem staysIn_setData (hs : s.st = .setData) (hn : s.noResetFor b.late) : s.staysIn (b.late + 1) .setData :=
  hs ▸ staysIn_of_request (trespIn_of_offers hl) (.inl hs) hn

variable (h : s.Inv) (hs : s.st = .setData)
include h hs

/-- The write is answered in cycle `Lw`. -/
theorem reaches_settle (hn : s.noResetFor (b.late + 1)) : ∃ t, Reaches (b.late + 1) s t ∧ t.enters .settle := by
  obtain ⟨v, hq, _⟩ := h.reqWrite hs
  obtain ⟨u, hr, hst, _, htq, ht⟩ :=
    reaches_answer (trespIn_of_offers hl) h (.inl hs) (hq ▸ rfl) (noResetFor_mono hn (Nat.le_succ _))
  have hu := hst.trans hs
  obtain ⟨t, hrun, ha, hst', hidx, hcnt, _⟩ :=
    run_engine (hr.after.noReset hn) (by rw [hu]; rfl) (engineStep_of_write_ok hu (htq.trans hq) ht)
  refine ⟨t, hr.trans ⟨hrun, ha, hidx⟩, hst', fun c hc => ?_⟩
  rw [hcnt, State.enterSettle_cnt, ← Option.some.inj hc, ha.params]

variable {p : Params} (hp : s.params = p)
include hp

theorem reaches_strobe (hn : s.noResetFor (b.late + 1 + p.settleCycles.toNat)) :
    ∃ t, Reaches (b.late + 1 + p.settleCycles.toNat) s t ∧ t.enters .strobe := by
  obtain ⟨u, hr, hu⟩ := reaches_settle hl h hs (noResetFor_mono hn (Nat.le_add_right _ _))
  obtain ⟨t, hr', ht, _⟩ := hu.reaches_exit (by rw [hr.after.params, hp]; rfl) (hr.after.noReset hn)
  exact ⟨t, hr.trans hr', ht⟩

theorem reaches_release (hn : s.noResetFor (b.late + 1 + p.settleCycles.toNat + p.strobeCycles.toNat)) :
    ∃ t, Reaches (b.late + 1 + p.settleCycles.toNat + p.strobeCycles.toNat) s t ∧ t.enters .release := by
  obtain ⟨u, hr, hu⟩ := reaches_strobe hl h hs hp (noResetFor_mono hn (Nat.le_add_right _ _))
  obtain ⟨t, hr', ht, _⟩ := hu.reaches_exit (by rw [hr.after.params, hp]; rfl) (hr.after.noReset hn)
  exact ⟨t, hr.trans hr', ht⟩

theorem reaches_polls (hn : s.noResetFor (b.pollsStart p)) :
    ∃ t, Reaches (b.pollsStart p) s t ∧ t.enters .pollWait ∧ t.polls = 0#16 := by
  obtain ⟨u, hr, hu, _⟩ := reaches_release hl h hs hp (noResetFor_mono hn (Nat.le_add_right _ _))
  have he : engineStep u = .next (u.enterPollWait 0#16) := by rw [engineStep, hu]; rfl
  obtain ⟨t, hrun, ha, hst, hidx, hcnt, hpolls, _⟩ := run_engine (hr.after.noReset hn) (by rw [hu]; rfl) he
  refine ⟨t, hr.trans ⟨hrun, ha, hidx⟩, ⟨hst, fun c hc => ?_⟩, hpolls⟩
  rw [hcnt, State.enterPollWait_cnt, ← Option.some.inj hc, ha.params]

end

/-! ## A poll round -/

section
variable {s : State} {p : Params} (hp : s.params = p) (hs : s.enters .pollWait)
include hp hs

section
variable {r : PollScript} {c : Classification} {rest : List Tresp} (hend : r.endsAs p c) (hl : s.trespIn = r.offers ++ rest)
include hend hl

/-- POLL is entered after the `Q` cycles of POLL_WAIT. -/
theorem reaches_poll (hn : s.noResetFor p.pollCycles.toNat) :
    ∃ t, Reaches p.pollCycles.toNat s t ∧ t.st = .poll ∧ t.polls = s.polls ∧
      t.trespIn = List.replicate r.late .none ++ .okByte r.status :: rest := by
  obtain ⟨t, hr, ⟨ht, _⟩, hpolls⟩ := hs.reaches_exit (by rw [hp]; rfl) hn
  exact ⟨t, hr, ht, hpolls, hr.after.trespIn_rest (by simp [hl, PollScript.offers]) hend.1⟩

theorem staysIn_poll (hn : s.noResetFor (r.cycles p)) :
    ∀ k, k < r.late + 1 → ∃ t, Sys2Proof.core.run (p.pollCycles.toNat + k) s = .next t ∧ t.st = .poll := by
  obtain ⟨u, hr, hst, _, hu⟩ := reaches_poll hp hs hend hl (noResetFor_mono hn (Nat.le_add_right _ _))
  have hstay := staysIn_of_request hu (.inr hst) (noResetFor_mono (hr.after.noReset hn) (Nat.le_succ _))
  exact hr.run_of_staysIn (hst ▸ hstay)

/-- The poll is answered in the last cycle of its round. -/
theorem reaches_status (h : s.Inv) (hn : s.noResetFor (r.cycles p)) :
    ∃ t, Reaches (p.pollCycles.toNat + r.late) s t ∧ t.Inv ∧ t.st = .poll ∧ t.polls = s.polls ∧ t.tresp = .okByte r.status := by
  obtain ⟨u, hr, hst, hpolls, hu⟩ := reaches_poll hp hs hend hl (noResetFor_mono hn (Nat.le_add_right _ _))
  have hi := inv_of_run h hr.run
  obtain ⟨t, hr', hst', hpolls', _, ht⟩ := reaches_answer hu hi (.inr hst) (hi.reqRead hst ▸ rfl)
    (noResetFor_mono (hr.after.noReset hn) (Nat.le_succ _))
  exact ⟨t, hr.trans hr', inv_of_run hi hr'.run, hst'.trans hst, hpolls'.trans hpolls, ht⟩

end

/-- An undecided round leads to the entry of POLL_WAIT again, if the count stays below the bound. -/
theorem reaches_again {r : PollScript} {rest : List Tresp} (hend : r.endsAs p .undecided)
    (hl : s.trespIn = r.offers ++ rest) (h : s.Inv) (hn : s.noResetFor (r.cycles p))
    (hb : p.maxPolls = 0#16 ∨ s.polls.toNat + 1 < p.maxPolls.toNat) :
    ∃ t, Reaches (r.cycles p) s t ∧ t.enters .pollWait ∧ t.polls.toNat ≤ s.polls.toNat + 1 := by
  obtain ⟨u, hr, hi, hst, hpolls, ht⟩ := reaches_status hp hs hend hl h hn
  have hup : u.params = p := hr.after.params.trans hp
  have hle : (nextPolls u.polls).toNat ≤ s.polls.toNat + 1 := by
    rw [nextPolls_toNat, hpolls]
    exact min_le_left _ _
  have hbelow : boundReached u.params (nextPolls u.polls) = false :=
    (boundReached_eq_false_iff _ _).mpr (hup ▸ hb.imp_right hle.trans_lt)
  have he := engineStep_of_undecided hst (hi.reqRead hst) ht (hup ▸ hend.2)
  rw [pollUndecided_of_below (s := u.recorded r.status) hbelow] at he
  obtain ⟨t, hrun, ha, hst', hidx, hcnt, hpolls', _⟩ := run_engine (hr.after.noReset hn) (by rw [hst]; rfl) he
  refine ⟨t, hr.trans ⟨hrun, ha, hidx⟩, ⟨hst', fun c hc => ?_⟩, hpolls' ▸ hle⟩
  rw [hcnt, State.enterPollWait_cnt, ← Option.some.inj hc, ha.params]
  rfl

end

/-- So do any number of undecided rounds. -/
theorem reaches_after_rounds {s : State} {p : Params} (hp : s.params = p) (hs : s.enters .pollWait) (h : s.Inv)
    (rs : List PollScript) (hend : ∀ r ∈ rs, r.endsAs p .undecided) {rest : List Tresp}
    (hl : s.trespIn = rs.flatMap PollScript.offers ++ rest) (hn : s.noResetFor (roundCycles p rs))
    (hb : p.maxPolls = 0#16 ∨ s.polls.toNat + rs.length < p.maxPolls.toNat) :
    ∃ t, Reaches (roundCycles p rs) s t ∧ t.enters .pollWait := by
  induction rs generalizing s with
  | nil => exact ⟨s, ⟨rfl, .refl s, rfl⟩, hs⟩
  | cons r rs ih =>
    obtain ⟨hr, hrs⟩ := List.forall_mem_cons.mp hend
    rw [roundCycles_cons] at hn ⊢
    rw [List.length_cons] at hb
    have hl' : s.trespIn = r.offers ++ (rs.flatMap PollScript.offers ++ rest) := by simp [hl]
    obtain ⟨u, hru, hu, hpolls⟩ := reaches_again hp hs hr hl' h (noResetFor_mono hn (Nat.le_add_right _ _))
      (hb.imp_right fun _ => by omega)
    obtain ⟨t, hrt, ht⟩ := ih (hru.after.params.trans hp) hu (inv_of_run h hru.run) hrs
      (hru.after.trespIn_rest hl' (PollScript.offers_length hr)) (hru.after.noReset hn) (hb.imp_right fun _ => by omega)
    exact ⟨t, hru.trans hrt, ht⟩

/-! ## The end of a byte -/

/-- The byte of `s` is through at `t`: the next one is begun, or the transfer is over with OK (R122). -/
def State.byteDone (s t : State) : Prop :=
  t.idx = s.idx + 1#16 ∧
    if s.idx + 1#16 = s.len then t.st = .done ∧ t.res = ⟨.ok, 0#1, noFlags, s.len⟩ else t.st = .setData

theorem run_ready {s : State} {b : Byte} (h : s.Inv) (hs : s.st = .poll) (ht : s.tresp = .okByte b)
    (hc : classify s.params (decodeStatus s.params b) = .ready) (hn : s.noResetFor 1) :
    ∃ t, Sys2Proof.core.run 1 s = .next t ∧ After 1 s t ∧ s.byteDone t := by
  obtain ⟨e, he⟩ := engineStep_next h
  obtain ⟨t, hrun, ha, hst, hidx, _, _, _, _, hres, _⟩ := run_engine hn (by rw [hs]; rfl) he
  rw [engineStep_of_ready hs (h.reqRead hs) ht hc] at he
  obtain ⟨hlast, rfl⟩ | ⟨hmore, _, rfl⟩ := pollReady_cases he
  · exact ⟨t, hrun, ha, hidx, (if_pos hlast).mpr ⟨hst, hres⟩⟩
  · exact ⟨t, hrun, ha, hidx, (if_neg hmore).mpr hst⟩

section
variable {s : State} {p : Params} {b : ByteScript} {rest : List Tresp} (hp : s.params = p) (h : s.Inv) (hs : s.st = .setData)
  (hplay : b.plays p) (hl : s.trespIn = b.offers ++ rest)
include hp h hs hplay hl

/-- The poll rounds of a byte up to any of them. -/
theorem reaches_round {before after : List PollScript} {r : PollScript} (hb : b.rounds = before ++ r :: after)
    (hn : s.noResetFor (b.pollsStart p + roundCycles p before)) :
    ∃ t, Reaches (b.pollsStart p + roundCycles p before) s t ∧ t.enters .pollWait ∧
      t.trespIn = r.offers ++ (after.flatMap PollScript.offers ++ rest) := by
  have ⟨_, hund, _, hbound⟩ := hplay
  obtain ⟨mid, x, hx⟩ := (List.eq_nil_or_concat (r :: after)).resolve_left nofun
  have hbm : b.undecided ++ [b.last] = before ++ mid ++ [x] := by
    rw [List.append_assoc, ← List.concat_eq_append (as := mid), ← hx]
    exact hb
  obtain ⟨hmid, _⟩ := List.append_inj' hbm rfl
  rw [hmid] at hund hbound
  obtain ⟨u, hru, hu, hpolls⟩ := reaches_polls hl h hs hp (noResetFor_mono hn (Nat.le_add_right _ _))
  have hul : u.trespIn = before.flatMap PollScript.offers ++ (r.offers ++ (after.flatMap PollScript.offers ++ rest)) :=
    hru.after.trespIn_rest (by simp [hl, b.offers_eq, hb]) hplay.head_length
  have hends : ∀ x ∈ before, x.endsAs p .undecided := fun x hx => hund x (List.mem_append_left mid hx)
  obtain ⟨t, hrt, ht⟩ := reaches_after_rounds (hru.after.params.trans hp) hu (inv_of_run h hru.run) before hends hul
    (hru.after.noReset hn) (hbound.imp_right fun hlt => by
      rw [List.length_append] at hlt
      rw [hpolls, BitVec.toNat_ofNat]
      omega)
  exact ⟨t, hru.trans hrt, ht,
    hrt.after.trespIn_rest hul (flatMap_offers_length fun x hx => ⟨_, hends x hx⟩)⟩

/-- A byte takes `Lw + S + P + 1 + sum (Q + Lr_i)` cycles. -/
theorem run_byte (hn : s.noResetFor (b.cycles p)) :
    ∃ t, Sys2Proof.core.run (b.cycles p) s = .next t ∧ After (b.cycles p) s t ∧ s.byteDone t := by
  have hcycles : b.cycles p =
      b.pollsStart p + roundCycles p b.undecided + (p.pollCycles.toNat + b.last.late) + 1 := by
    rw [ByteScript.cycles, ByteScript.rounds, roundCycles_append, roundCycles_cons]
    simp only [roundCycles, PollScript.cycles, List.map_nil, List.sum_nil]
    omega
  rw [hcycles] at hn ⊢
  have ⟨_, _, hlast, _⟩ := hplay
  obtain ⟨u, hru, hu, hul⟩ := reaches_round hp h hs hplay hl (after := []) rfl (noResetFor_mono hn (by omega))
  obtain ⟨v, hrv, hi, hst, _, ht⟩ := reaches_status (hru.after.params.trans hp) hu hlast hul (inv_of_run h hru.run)
    (hru.after.noReset hn)
  have hr := hru.trans hrv
  obtain ⟨t, hrun, ha, hdone⟩ := run_ready hi hst ht (hr.after.params.trans hp ▸ hlast.2) (hr.after.noReset hn)
  refine ⟨t, (run_add _ _ hr.run).trans hrun, hr.after.trans ha, ?_⟩
  simpa only [State.byteDone, hr.idx, hr.after.len] using hdone

end

/-! ## A transfer -/

/-- Any number of bytes short of the last. -/
theorem run_bytes {s : State} {p : Params} (hp : s.params = p) (h : s.Inv) (hs : s.st = .setData) (bs : List ByteScript)
    (hplay : ∀ b ∈ bs, b.plays p) {rest : List Tresp} (hl : s.trespIn = bs.flatMap ByteScript.offers ++ rest)
    (hn : s.noResetFor (scriptCycles p bs)) (hlen : s.idx.toNat + bs.length < s.len.toNat) :
    ∃ t, Sys2Proof.core.run (scriptCycles p bs) s = .next t ∧ After (scriptCycles p bs) s t ∧ t.st = .setData ∧
      t.idx.toNat = s.idx.toNat + bs.length ∧ t.trespIn = rest := by
  induction bs generalizing s with
  | nil => exact ⟨s, rfl, .refl s, hs, rfl, hl⟩
  | cons b bs ih =>
    obtain ⟨hb, hbs⟩ := List.forall_mem_cons.mp hplay
    rw [scriptCycles_cons] at hn ⊢
    rw [List.length_cons] at hlen ⊢
    have hl' : s.trespIn = b.offers ++ (bs.flatMap ByteScript.offers ++ rest) := by simp [hl]
    obtain ⟨u, hu, ha, hidx, hdone⟩ := run_byte hp h hs hb hl' (noResetFor_mono hn (Nat.le_add_right _ _))
    have hk : (s.idx + 1#16).toNat = s.idx.toNat + 1 := idx_succ_toNat (by omega)
    have hmore : s.idx + 1#16 ≠ s.len := fun e => by
      have := congrArg BitVec.toNat e
      omega
    rw [if_neg hmore] at hdone
    have hu' : u.idx.toNat = s.idx.toNat + 1 := hidx ▸ hk
    obtain ⟨t, ht, hat, hst, hti, hrest⟩ := ih (ha.params.trans hp) (inv_of_run h hu) hdone hbs
      (ha.trespIn_rest hl' hb.offers_length) (ha.noReset hn) (by rw [ha.len]; omega)
    exact ⟨t, (run_add _ _ hu).trans ht, ha.trans hat, hst, by omega, hrest⟩

/-- All the bytes of a transfer, and DONE. -/
theorem run_transfer {s : State} {p : Params} (hp : s.params = p) (h : s.Inv) (hs : s.st = .setData) {bs : List ByteScript}
    (hne : bs ≠ []) (hplay : ∀ b ∈ bs, b.plays p) {rest : List Tresp}
    (hl : s.trespIn = bs.flatMap ByteScript.offers ++ rest) (hn : s.noResetFor (scriptCycles p bs)) (h0 : s.idx = 0#16)
    (hlen : s.len.toNat = bs.length) :
    ∃ t, Sys2Proof.core.run (scriptCycles p bs) s = .next t ∧ t.st = .done ∧ t.res = ⟨.ok, 0#1, noFlags, s.len⟩ ∧
      t.idx = s.len ∧ t.trespIn = rest := by
  obtain ⟨init, last, rfl⟩ := (List.eq_nil_or_concat bs).resolve_left hne
  simp only [List.concat_eq_append, List.length_append, List.length_singleton, List.forall_mem_append,
    List.forall_mem_singleton] at hlen hplay
  obtain ⟨hinit, hlast⟩ := hplay
  have hsum : scriptCycles p (init.concat last) = scriptCycles p init + last.cycles p := by
    rw [List.concat_eq_append, scriptCycles_append, scriptCycles_cons]
    rfl
  rw [hsum] at hn ⊢
  have hi : s.idx.toNat = 0 := by rw [h0]; rfl
  have hl' : s.trespIn = init.flatMap ByteScript.offers ++ (last.offers ++ rest) := by simp [hl]
  obtain ⟨u, hu, ha, hst, hidx, hul⟩ :=
    run_bytes hp h hs init hinit hl' (noResetFor_mono hn (Nat.le_add_right _ _)) (by omega)
  obtain ⟨t, ht, hat, hti, hdone⟩ :=
    run_byte (ha.params.trans hp) (inv_of_run h hu) hst hlast hul (ha.noReset hn)
  have hend : u.idx + 1#16 = u.len := by
    refine BitVec.eq_of_toNat_eq ((idx_succ_toNat ?_).trans ?_) <;> rw [ha.len] <;> omega
  rw [if_pos hend, ha.len] at hdone
  exact ⟨t, (run_add _ _ hu).trans ht, hdone.1, hdone.2, hti.trans (hend.trans ha.len),
    hat.trespIn_rest hul hlast.offers_length⟩

/-- The SEND cycle: SET_DATA with byte 0 is entered. -/
theorem step_send {s : State} {n : Half} (hw : s.issues (.send n)) (ha : acceptedIn s (.send n)) (hn : n ≠ 0#16) :
    ∃ t, step s = .next t ∧ t.st = .setData ∧ t.idx = 0#16 ∧ t.len = n ∧ t.params = s.params ∧
      t.hostIn = s.hostIn.tail ∧ t.trespIn = s.trespIn.tail := by
  have hnop : Instr.send n ≠ .nop := nofun
  have hx := exec_eq_commandState (.send n) s
  refine ⟨_, step_command hnop hw ha hx, ?_⟩
  cases command_cases hnop ha hx with
  | sendEmpty hb he => exact absurd rfl hn
  | sendBytes _ hb hl h0 he => exact he ▸ ⟨rfl, rfl, rfl, rfl, rfl, rfl⟩

/-- After the SEND cycle, each byte is entered when the ones before it are through, and then DONE (R204). -/
theorem run_sent_transfer {s : State} {n : Half} {bs : List ByteScript} {first : Tresp} {rest : List Tresp} (h : s.Inv)
    (hw : s.issues (.send n)) (ha : acceptedIn s (.send n)) (hlen : n.toNat = bs.length) (hne : bs ≠ [])
    (hplay : ∀ b ∈ bs, b.plays s.params) (hl : s.trespIn = first :: bs.flatMap ByteScript.offers ++ rest)
    (hn : s.noResetFor (1 + scriptCycles s.params bs)) :
    (∀ before b after, bs = before ++ b :: after →
      ∃ t, Sys2Proof.core.run (1 + scriptCycles s.params before) s = .next t ∧ t.st = .setData ∧
        t.idx.toNat = before.length) ∧
    (∃ t, Sys2Proof.core.run (1 + scriptCycles s.params bs) s = .next t ∧ t.st = .done ∧ t.res = ⟨.ok, 0#1, noFlags, n⟩ ∧
      t.idx = n ∧ t.trespIn = rest) := by
  have hn0 : n ≠ 0#16 := fun e => hne (List.length_eq_zero_iff.mp (by rw [← hlen, e]; rfl))
  obtain ⟨u, hu, hst, hidx, rfl, hp, hhost, htr⟩ := step_send hw ha hn0
  have hul : u.trespIn = bs.flatMap ByteScript.offers ++ rest := by rw [htr, hl]; rfl
  have hi := inv_of_step h hu
  rw [Nat.add_comm] at hn
  have hnu := noResetFor_tail hn hhost
  simp only [Nat.add_comm 1, run_succ hu]
  refine ⟨fun before b after hb => ?_, run_transfer hp hi hst hne hplay hul hnu hidx hlen⟩
  subst hb
  rw [scriptCycles_append] at hnu
  rw [List.length_append, List.length_cons] at hlen
  have hi0 : u.idx.toNat = 0 := by rw [hidx]; rfl
  obtain ⟨t, ht, _, hst', hidx', _⟩ := run_bytes hp hi hst before (fun x hx => hplay x (List.mem_append_left _ hx))
    (rest := (b :: after).flatMap ByteScript.offers ++ rest) (by simp [hul]) (noResetFor_mono hnu (Nat.le_add_right _ _))
    (by omega)
  exact ⟨t, ht, hst', by omega⟩

/-! ## Equal latencies (R204) -/

theorem ByteScript.cycles_of_one_poll {p : Params} {b : ByteScript} (h : b.undecided = []) :
    b.cycles p = byteCycles p (b.late + 1) (b.last.late + 1) := by
  simp [ByteScript.cycles, ByteScript.pollsStart, ByteScript.rounds, h, roundCycles, PollScript.cycles, byteCycles]
  omega

theorem scriptCycles_of_equal {p : Params} {bs : List ByteScript} {lw lr : Nat}
    (h : ∀ b ∈ bs, b.undecided = [] ∧ b.late + 1 = lw ∧ b.last.late + 1 = lr) :
    scriptCycles p bs = transferCycles p bs.length lw lr := by
  have hc : ∀ c ∈ bs.map (ByteScript.cycles p), c = byteCycles p lw lr := by
    intro c hc
    obtain ⟨b, hb, rfl⟩ := List.mem_map.mp hc
    obtain ⟨hu, rfl, rfl⟩ := h b hb
    exact b.cycles_of_one_poll hu
  rw [scriptCycles, List.sum_eq_card_nsmul _ _ hc, List.length_map, smul_eq_mul, transferCycles]

/-! ## The timeline -/

section
variable {s : State} {b : ByteScript} {rest : List Tresp} (h : s.Inv) (hs : s.st = .setData) (hl : s.trespIn = b.offers ++ rest)
  (hn : s.noResetFor (b.cycles s.params))
include h hs hl hn

theorem run_in_settle (k : Nat) (hk : k < s.params.settleCycles.toNat) :
    ∃ t, Sys2Proof.core.run (b.late + 1 + k) s = .next t ∧ t.st = .settle ∧ t.strobe = false := by
  have hn : s.noResetFor (b.late + 1 + s.params.settleCycles.toNat) :=
    noResetFor_mono hn (by simp only [ByteScript.cycles, ByteScript.pollsStart]; omega)
  obtain ⟨u, hr, hu⟩ := reaches_settle hl h hs (noResetFor_mono hn (Nat.le_add_right _ _))
  have hstay := hu.staysIn (by rw [hr.after.params]; rfl) (hr.after.noReset hn)
  obtain ⟨t, ht, hst⟩ := hr.run_of_staysIn hstay k hk
  exact ⟨t, ht, hst, (inv_of_run h ht).strobeLow hst nofun⟩

theorem run_in_strobe (k : Nat) (hk : k < s.params.strobeCycles.toNat) :
    ∃ t, Sys2Proof.core.run (b.late + 1 + s.params.settleCycles.toNat + k) s = .next t ∧ t.st = .strobe ∧ t.strobe = true := by
  have hn : s.noResetFor (b.late + 1 + s.params.settleCycles.toNat + s.params.strobeCycles.toNat) :=
    noResetFor_mono hn (by simp only [ByteScript.cycles, ByteScript.pollsStart]; omega)
  obtain ⟨u, hr, hu⟩ := reaches_strobe hl h hs rfl (noResetFor_mono hn (Nat.le_add_right _ _))
  have hstay := hu.staysIn (by rw [hr.after.params]; rfl) (hr.after.noReset hn)
  obtain ⟨t, ht, hst⟩ := hr.run_of_staysIn hstay k hk
  exact ⟨t, ht, hst, (inv_of_run h ht).strobe.mpr hst⟩

variable (hplay : b.plays s.params)
include hplay

theorem run_in_round {before after : List PollScript} {r : PollScript} (hb : b.rounds = before ++ r :: after) {start : Nat}
    (hstart : start = b.pollsStart s.params + roundCycles s.params before) :
    (∀ k, k < s.params.pollCycles.toNat → ∃ t, Sys2Proof.core.run (start + k) s = .next t ∧ t.st = .pollWait) ∧
    (∀ k, k < r.late + 1 →
      ∃ t, Sys2Proof.core.run (start + s.params.pollCycles.toNat + k) s = .next t ∧ t.st = .poll) := by
  subst hstart
  have hn : s.noResetFor (b.pollsStart s.params + roundCycles s.params before + r.cycles s.params) :=
    noResetFor_mono hn (by rw [ByteScript.cycles, hb, roundCycles_append, roundCycles_cons]; omega)
  obtain ⟨u, hr, hu, hul⟩ := reaches_round rfl h hs hplay hl hb (noResetFor_mono hn (Nat.le_add_right _ _))
  have hnu := hr.after.noReset hn
  obtain ⟨c, hc⟩ := hplay.rounds_end r (by simp [hb])
  refine ⟨hr.run_of_staysIn (hu.staysIn (by rw [hr.after.params]; rfl) (noResetFor_mono hnu (Nat.le_add_right _ _))),
    fun k hk => ?_⟩
  rw [Nat.add_assoc, run_add _ _ hr.run]
  exact staysIn_poll hr.after.params hu hc hul hnu k hk

end

/-- Settles O59: the stays from the checkpoints, the ends by `run_byte` and `run_sent_transfer`. -/
theorem byteTimeline : Obligations.ByteTimeline := by
  refine ⟨fun s b rest S P Q hS hP hQ h hs hplay hl hn => ?_,
    fun s n bs first rest h hw ha hlen hne hplay hl hn => run_sent_transfer h hw ha hlen hne hplay hl hn,
    fun p bs lw lr => scriptCycles_of_equal⟩
  subst hS hP hQ
  refine ⟨staysIn_setData hl hs (noResetFor_mono hn ?_), run_in_settle h hs hl hn, run_in_strobe h hs hl hn, ?_,
    fun before r after hb start => run_in_round h hs hl hn hplay hb, ?_⟩
  · simp only [ByteScript.cycles, ByteScript.pollsStart]
    omega
  · obtain ⟨t, hr, ht, _⟩ := reaches_release hl h hs rfl
      (noResetFor_mono hn (by simp only [ByteScript.cycles, ByteScript.pollsStart]; omega))
    exact ⟨t, hr.run, ht, (inv_of_run h hr.run).strobeLow ht nofun⟩
  · obtain ⟨t, ht, ha, hidx, hdone⟩ := run_byte rfl h hs hplay hl hn
    exact ⟨t, ht, hidx, ha.trespIn_rest hl hplay.offers_length, hdone⟩

end Sys2Proof.Machine
end

section
/-! The host commands (42_host_commands.md rules R140 to R149): one equation for each accepted command, what a rejection does in
its cycle, and the frame of every command. -/
namespace Sys2Proof.Machine

/-! ## An accepted command, one equation each (R141 to R147) -/

section
variable {s : State}

theorem exec_send_empty (hs : s.st = .idle ∨ s.st = .done) :
    exec (.send 0#16) s = .next { s.loadTransfer 0#16 with st := .done, res := ⟨.ok, 0#1, noFlags, 0#16⟩ } := by
  have hb := (betweenTransfers_iff _).mpr hs
  have hl := (lengthFits_iff s 0#16).mpr (Nat.zero_le _)
  simp only [exec, execSend, hb, hl, Bool.and_self, if_true]

theorem exec_send_bytes {n : Half} (ha : acceptedIn s (.send n)) (hn : n ≠ 0#16) :
    exec (.send n) s = .next ({ s.loadTransfer n with res := noResult }.beginByte 0#16) := by
  have hb := (betweenTransfers_iff _).mpr ha.1
  have hl := (lengthFits_iff _ _).mpr ha.2
  simp only [exec, execSend, hb, hl, Bool.and_self, if_true, if_neg hn]

theorem exec_retry (hs : s.st = .faultWait) : exec .retry s = .next s.resume := by
  simp only [exec, execRetry, (atDecision_iff _).mpr hs, if_true]

theorem exec_abort (hs : s.st = .faultWait) : exec .abort s = .next s.abandon := by
  simp only [exec, execAbort, (atDecision_iff _).mpr hs, if_true]

theorem abandon_of_timeout (h : s.fault.timeout = true) : s.abandon = s.finish .timeout 0#1 noFlags s.idx := if_pos h

theorem abandon_of_fault (h : s.fault.timeout = false) : s.abandon = s.finish .deviceFault 0#1 s.fault.flags s.idx :=
  if_neg (Bool.eq_false_iff.mp h)

theorem exec_setle {pol : BitVec 2} {p : LinePolicy} (hs : s.st = .idle ∨ s.st = .done) (hp : LinePolicy.ofBits pol = some p) :
    exec (.setle pol) s = .next { s with policy := p } := by
  simp only [exec, execSetle, hp, (betweenTransfers_iff _).mpr hs, if_true]

theorem exec_ack (hs : s.st = .idle ∨ s.st = .done) : exec .ack s = .next { s with rej := false, st := .idle } := by
  simp only [exec, execAck, (betweenTransfers_iff _).mpr hs, if_true]

theorem exec_wrbuf {a : Half} {v : Byte} (ha : acceptedIn s (.wrbuf a v)) : exec (.wrbuf a v) s = .next (s.memWrite a v) := by
  have hb := (betweenTransfers_iff _).mpr ha.1
  have hf := (indexFits_iff _ _).mpr ha.2
  simp only [exec, execWrbuf, hb, hf, Bool.and_self, if_true]

end

/-! ## Each command's own statement -/

/-- Settles O10: SEND 0, SEND N and the rejection; the byte put on the request is the `MemRead` of index 0. -/
theorem sendStartsTransfer : Obligations.SendStartsTransfer :=
  ⟨fun _ => exec_send_empty,
    fun s _ hs hn hl => ⟨s.memRead 0#16, fun _ => memRead_of_known (j := 0#16), exec_send_bytes ⟨hs, hl⟩ hn⟩,
    fun _ _ h => exec_rejected h⟩

/-- Settles O11: `resume` at the decision point, the rejection elsewhere. -/
theorem retryResumesPolling : Obligations.RetryResumesPolling := ⟨fun _ => exec_retry, fun _ h => exec_rejected h⟩

/-- Settles O12: `abandon` by its two cases. -/
theorem abortReportsTheFault : Obligations.AbortReportsTheFault := by
  refine ⟨fun s hs hf => ?_, fun s hs hf => ?_, fun _ h => exec_rejected h⟩
  · rw [exec_abort hs, abandon_of_timeout hf]
    rfl
  · rw [exec_abort hs, abandon_of_fault hf]
    rfl

/-- Settles O13: 0, 1 and 2 are codes of a policy, and 3 is never accepted. -/
theorem setleSetsThePolicy : Obligations.SetleSetsThePolicy :=
  ⟨fun _ hs => ⟨exec_setle hs rfl, exec_setle hs rfl, exec_setle hs rfl⟩,
    fun _ _ hi hd => exec_rejected fun h => h.1.elim hi hd,
    fun _ => exec_rejected fun h => h.2 rfl,
    fun _ => beq_iff_eq⟩

/-- Settles O14: in IDLE the state that ACK leads to is the one it starts from. -/
theorem ackCollectsTheResult : Obligations.AckCollectsTheResult := by
  refine ⟨fun _ hs => exec_ack (.inr hs), fun s hs => ?_, fun _ hi hd => exec_rejected fun h => h.elim hi hd⟩
  rw [exec_ack (.inl hs), ← hs]

/-- Settles O15: the reads of SEQ after `memWrite`, at the written index and at the others. -/
theorem wrbufStoresOneByte : Obligations.WrbufStoresOneByte := by
  refine ⟨fun s a v hs ha => ⟨s.memWrite a v, exec_wrbuf ⟨hs, ha⟩, rfl, ?_, ?_, fun j hj => ⟨?_, ?_⟩, memWrite_seq_wf a v⟩,
    fun _ _ _ h => exec_rejected h⟩
  · exact s.seq.lookup_write_same a.toNat v
  · rw [known_memWrite, if_pos rfl]
  · exact s.seq.lookup_write_other v hj
  · rw [known_memWrite, if_neg hj]

theorem hostAccess_cmd (w : Word) (s : State) : hostAccess (.write 0x00#8 w) s = command w s := rfl

/-- Settles O16: a write of CMD is a `command`, and one of a reserved word is the rejection. -/
theorem reservedCommandRejected : Obligations.ReservedCommandRejected := fun s w _ h =>
  (hostAccess_cmd w s).trans (command_of_reserved h s)

/-- Settles O18: the meaning of every command is a `next`. -/
theorem everyCommandCompletes : Obligations.EveryCommandCompletes := fun i s => ⟨_, exec_eq_commandState i s⟩

/-! ## A cycle whose host access changes `rej` at most -/

/-- In such a cycle the engine's step goes on, whether or not the engine moves. -/
theorem step_of_rej_access {s e : State} {r : Bool} (hr : s.pins.rst = false)
    (hh : hostAccess s.pins.access s = .next { s with rej := r }) (he : engineStep s = .next e) :
    step s = .next (s.tick { e with rej := r }) := by
  cases hi : s.st.inert with
  | true =>
    rw [engineStep_inert hi] at he
    cases he
    exact step_inert hr hi hh
  | false => exact step_active_command hr hi hh he

theorem hostAccess_of_rejects {s : State} (h : s.rejects) : hostAccess s.pins.access s = .next s.reject := by
  obtain ⟨_, hn⟩ | ⟨hh, _⟩ | ⟨_, _, _, _, _, hn⟩ := hostAccess_pins s h.1
  · exact absurd h hn
  · exact hh
  · exact absurd h hn

/-! ### NOP (R140) -/

theorem decode_nop_iff {w : Word} : decode w = .ok .nop ↔ w = 0x00000000#32 := by
  rw [decode_ok_iff]
  exact ⟨fun ⟨he, _⟩ => he.symm, fun hw => ⟨hw.symm, rfl⟩⟩

/-- A word of `OP = 0` that is not 0 has a must-be-zero bit set. -/
theorem mustBeZero_of_op0 {w : Word} (hop : bits 31 28 w = 0#4) (hw : w ≠ 0x00000000#32) : bits 27 0 w ≠ 0#28 :=
  fun hz => hw (bareFormat_iff.mpr ⟨hop, hz⟩).symm

/-- Settles O9: a cycle with NOP is one whose host access changes nothing. -/
theorem nopHasNoEffect : Obligations.NopHasNoEffect := by
  refine ⟨fun _ => rfl, fun _ => decode_nop_iff, fun w hop hw s => ?_, fun s e hr ha he => ?_⟩
  · obtain ⟨_, hd⟩ := (decode_error_iff w).mpr (.inr (.inl ⟨.inl hop, mustBeZero_of_op0 hop hw⟩))
    exact command_of_reserved hd s
  · have hh : hostAccess s.pins.access s = .next s := by rw [ha, hostAccess_command (decode_nop_iff.mpr rfl)]; rfl
    have hst := step_of_rej_access (r := s.rej) hr hh he
    rwa [← (engineStep_keeps he).rej] at hst

/-! ## The acceptance table (R149) -/

theorem rej_of_accepted {s t : State} {i : Instr} (ha : acceptedIn s i) (h : exec i s = .next t) (hi : i ≠ .ack) :
    t.rej = s.rej := by
  by_cases hn : i = .nop
  · subst hn
    cases h
    rfl
  · exact (command_cases hn ha h).rej_cases.resolve_right fun ⟨hack, _⟩ => hi hack

/-- Settles O17: ACK by its equation, the other accepted commands by `rej_of_accepted`, the cycle by `step_of_rej_access`. -/
theorem acceptanceTable : Obligations.AcceptanceTable := by
  refine ⟨fun s i ha => ?_, fun _ _ => exec_rejected,
    fun s e hj he => step_of_rej_access hj.1 (hostAccess_of_rejects hj) he⟩
  by_cases hi : i = .ack
  · subst hi
    exact ⟨_, exec_ack ha, fun h => absurd rfl h, fun _ => rfl⟩
  · have h := exec_eq_commandState i s
    exact ⟨_, h, rej_of_accepted ha h, fun hack => absurd hack hi⟩

/-! ## The frame of the commands -/

/-- Every outcome of a command: NOP and a rejection change `rej` at most, the others are an accepted command's. -/
theorem exec_cases {s t : State} {i : Instr} (h : exec i s = .next t) :
    (∃ r, (r = s.rej ∨ r = true) ∧ t = { s with rej := r }) ∨ CommandCase s t i := by
  by_cases ha : acceptedIn s i
  · by_cases hn : i = .nop
    · subst hn
      cases h
      exact .inl ⟨_, .inl rfl, rfl⟩
    · exact .inr (command_cases hn ha h)
  · rw [exec_rejected ha] at h
    cases h
    exact .inl ⟨_, .inr rfl, rfl⟩

/-- What no command touches: the inputs and what the Transport owes. -/
structure InputsKept (s x : State) : Prop where
  hostIn    : x.hostIn = s.hostIn
  trespIn   : x.trespIn = s.trespIn
  draws     : x.draws = s.draws
  abandoned : x.abandoned = s.abandoned

section
variable {s x : State} {i : Instr} (hc : CommandCase s x i)
include hc

theorem CommandCase.inputsKept : InputsKept s x := by
  cases hc <;> subst x <;> exact ⟨rfl, rfl, rfl, rfl⟩

theorem CommandCase.strobeQ_eq : x.strobeQ = s.strobeQ := by
  cases hc <;> subst x <;> rfl

theorem CommandCase.transfer_kept (hn : ∀ n, i ≠ .send n) : x.len = s.len ∧ x.idx = s.idx ∧ x.fault = s.fault :=
  ⟨hc.len_cases.resolve_right fun ⟨n, h, _⟩ => hn n h, hc.idx_cases.resolve_right fun ⟨n, h, _⟩ => hn n h,
    hc.fault_cases.resolve_right fun ⟨n, h, _⟩ => hn n h⟩

theorem CommandCase.result_kept (hn : ∀ n, i ≠ .send n) (ha : i ≠ .abort) : x.res = s.res ∧ x.treq = s.treq := by
  cases hc with
  | sendEmpty => exact absurd rfl (hn _)
  | sendBytes n => exact absurd rfl (hn n)
  | abortTimeout | abortFault => exact absurd rfl ha
  | _ => subst x; exact ⟨rfl, rfl⟩

theorem CommandCase.counters_kept (h : i ≠ .retry) : x.cnt = s.cnt ∧ x.polls = s.polls := by
  cases hc with
  | retry => exact absurd rfl h
  | _ => subst x; exact ⟨rfl, rfl⟩

theorem CommandCase.st_kept (hn : ∀ n, i ≠ .send n) (hr : i ≠ .retry) (ha : i ≠ .abort) (hk : i ≠ .ack) : x.st = s.st := by
  cases hc with
  | sendEmpty => exact absurd rfl (hn _)
  | sendBytes n => exact absurd rfl (hn n)
  | retry => exact absurd rfl hr
  | abortTimeout | abortFault => exact absurd rfl ha
  | ack => exact absurd rfl hk
  | setle | wrbuf => subst x; rfl

theorem CommandCase.seq_kept (h : ∀ a v, i ≠ .wrbuf a v) : SeqKept s x :=
  hc.seq_cases.resolve_right fun ⟨a, v, hw, _⟩ => h a v hw

theorem CommandCase.byte_kept (j : Nat) (h : ∀ a v, i = .wrbuf a v → j ≠ a.toNat) :
    x.seq.lookup j = s.seq.lookup j ∧ x.known j = s.known j := by
  obtain hk | ⟨a, v, hw, rfl⟩ := hc.seq_cases
  · exact ⟨by rw [hk.seq], known_congr hk.seq hk.seqOld hc.seqKept_eq j⟩
  · have hj := h a v hw
    exact ⟨s.seq.lookup_write_other v hj, by rw [known_memWrite, if_neg hj]⟩

end

/-- Settles O19: NOP and a rejection leave all but `rej`; an accepted command has its frame element by element. -/
theorem commandFrame : Obligations.CommandFrame := by
  intro i s t h
  obtain ⟨r, hr, rfl⟩ | hc := exec_cases h
  · exact ⟨⟨rfl, rfl, rfl, rfl, rfl, rfl, rfl, rfl, rfl, rfl⟩, fun _ => ⟨rfl, rfl, rfl⟩, fun _ _ => ⟨rfl, rfl⟩,
      fun _ => ⟨rfl, rfl⟩, fun _ => rfl, fun _ => ⟨rfl, rfl⟩, fun _ _ => ⟨rfl, rfl⟩, fun _ _ _ _ => rfl, fun _ => hr⟩
  · have hi := hc.inputsKept
    have hm := hc.monitorKept
    exact ⟨⟨hc.params_eq, hi.hostIn, hi.trespIn, hi.draws, hc.seqKept_eq, hi.abandoned, hm.pstat, hm.pvalid, hm.dataQ,
        hc.strobeQ_eq⟩,
      hc.transfer_kept, hc.result_kept, hc.counters_kept,
      fun h => hc.policy_cases.resolve_right fun ⟨p, hp, _⟩ => h p hp,
      fun h => ⟨(hc.seq_kept h).seq, (hc.seq_kept h).seqOld⟩,
      hc.byte_kept, hc.st_kept,
      fun h => hc.rej_cases.imp_right fun ⟨hack, _⟩ => absurd hack h⟩

end Sys2Proof.Machine
end

section
/-! Bus errors, the decision point and ATTN (60_exceptions.md rules R160 to R173): how a bus error ends a transfer, the one way
into the decision point and the ways out of it, and what raises and lowers ATTN. -/
namespace Sys2Proof.Machine

/-! ## A bus error (R160 and R161) -/

/-- In both phases the engine finishes at once at the byte being worked on. -/
theorem engineStep_of_bus_error {s : State} (h : s.Inv) (ht : s.tresp = .busErr) (hs : s.st = .setData ∨ s.st = .poll) :
    engineStep s = .next (s.finish .busError (if s.st = .setData then 0#1 else 1#1) noFlags s.idx) := by
  obtain hs | hs := hs
  · obtain ⟨v, hq, _⟩ := h.reqWrite hs
    rw [engineStep_of_write_failed hs hq ht, if_pos hs]
  · rw [engineStep_of_read_failed hs (h.reqRead hs) ht, if_neg (hs ▸ nofun)]

/-- Settles O36: the cycle is the engine's, whose step is `finish`. -/
theorem busErrorEndsTheTransfer : Obligations.BusErrorEndsTheTransfer := by
  intro s h hr ht hs
  have hi : s.st.inert = false := by obtain hs | hs := hs <;> rw [hs] <;> rfl
  have hb : s.strobeQ = false := by obtain hs | hs := hs <;> exact h.strobeLow hs nofun
  obtain ⟨r, _, hst⟩ := step_active hr hi (engineStep_of_bus_error h ht hs)
  exact ⟨_, hst, rfl, rfl, hb, rfl, rfl, rfl, rfl, rfl, rfl, rfl, rfl, rfl⟩

/-! ## Into the decision point (R170) -/

/-- No command leads into the decision point. -/
theorem CommandCase.decision_of_decision {s x : State} {i : Instr} (hc : CommandCase s x i) (hx : x.st = .faultWait) :
    s.st = .faultWait := by
  cases hc with
  | setle _ _ _ _ he => subst he; exact hx
  | wrbuf _ _ _ _ he => subst he; exact hx
  | _ => subst x; cases hx

/-- The engine enters it from an answered poll, and writes the status, the poll count and the reasons. -/
theorem EngineCase.enters_decision {s e : State} (hc : EngineCase s e) (hne : s.st ≠ .faultWait) (hx : e.st = .faultWait) :
    s.st = .poll ∧ ∃ b p f, s.tresp = .okByte b ∧ e = { s.recorded b with polls := p }.enterDecision f := by
  cases hc with
  | pollFault _ b f hs _ ht _ he => exact ⟨hs, b, s.polls, f.reasons, ht, he⟩
  | pollTimeout _ b hs _ ht _ _ he => exact ⟨hs, b, _, timeoutReasons, ht, he⟩
  | waiting _ he => subst he; exact absurd hx hne
  | counting _ _ he => subst he; exact absurd hx hne
  | _ => subst e; cases hx

theorem step_enters_decision {s t : State} (hst : step s = .next t) (hne : s.st ≠ .faultWait) (hx : t.st = .faultWait) :
    s.st = .poll ∧ ∃ b p f r, s.tresp = .okByte b ∧
      t = s.tick { ({ s.recorded b with polls := p }.enterDecision f) with rej := r } := by
  cases step_cause hst with
  | reset _ ht => subst ht; cases hx
  | waits r _ _ ht => subst ht; exact absurd hx hne
  | command i x _ _ _ _ hc ht => subst ht; exact absurd (hc.decision_of_decision hx) hne
  | engine e r _ _ _ hc ht =>
    subst ht
    obtain ⟨hs, b, p, f, hb, rfl⟩ := hc.enters_decision hne hx
    exact ⟨hs, b, p, f, r, hb, rfl⟩

theorem flags_ne_noFlags_iff (f : FaultReasons) : f.flags ≠ noFlags ↔ f.pe = true ∨ f.desel = true ∨ f.err = true := by
  simp only [FaultReasons.flags, noFlags, ne_eq, DeviceFlags.mk.injEq, not_and_or, Bool.not_eq_false]

/-- At the decision point a timeout stands alone, and without one there is a flag (R166). -/
theorem State.Inv.decision_reasons {s : State} (h : s.Inv) (hs : s.st = .faultWait) :
    (s.fault.timeout = true ∧ s.fault.pe = false ∧ s.fault.desel = false ∧ s.fault.err = false) ∨
      (s.fault.timeout = false ∧ (s.fault.pe = true ∨ s.fault.desel = true ∨ s.fault.err = true)) := by
  cases ht : s.fault.timeout with
  | true =>
    have ha := h.toAlone ht
    exact .inl ⟨rfl, congrArg DeviceFlags.pe ha, congrArg DeviceFlags.desel ha, congrArg DeviceFlags.err ha⟩
  | false => exact .inr ⟨rfl, (flags_ne_noFlags_iff _).mp (flags_ne_noFlags (h.reasons hs) ht)⟩

/-- Settles O37: the entry's own next state, with the columns of R45 for POLL and the reasons of the state entered. -/
theorem decisionPointEntry : Obligations.DecisionPointEntry := by
  intro s t h hst hne hx
  have hf := (inv_of_step h hst).decision_reasons hx
  obtain ⟨hs, b, p, f, r, hb, rfl⟩ := step_enters_decision hst hne hx
  exact ⟨hs, rfl, rfl, rfl, (h.working hs rfl).2, h.strobeLow hs nofun, rfl, rfl, rfl, rfl, ⟨b, hb, rfl⟩, hf⟩

/-! ## Out of the decision point (R171) -/

/-- The accepted commands there are RETRY, which resumes, and ABORT, which ends the transfer. -/
theorem CommandCase.leaves_decision {s x : State} {i : Instr} (hc : CommandCase s x i) (hs : s.st = .faultWait) :
    (i = .retry ∧ x = s.resume) ∨ (i = .abort ∧ x.st = .done) := by
  have hb : ¬ s.st.betweenTransfers = true := by rw [hs]; nofun
  cases hc with
  | retry _ he => exact .inl ⟨rfl, he⟩
  | abortTimeout _ _ he => subst he; exact .inr ⟨rfl, rfl⟩
  | abortFault _ _ he => subst he; exact .inr ⟨rfl, rfl⟩
  | sendEmpty h _ => exact absurd h hb
  | sendBytes _ h _ _ _ => exact absurd h hb
  | setle _ _ _ h _ => exact absurd h hb
  | ack h _ => exact absurd h hb
  | wrbuf _ _ h _ _ => exact absurd h hb

theorem not_accepted_at_decision {s : State} {i : Instr} (hs : s.st = .faultWait) (hn : i ≠ .nop) (hr : i ≠ .retry)
    (ha : i ≠ .abort) : ¬ acceptedIn s i := by
  intro h
  obtain ⟨hretry, _⟩ | ⟨habort, _⟩ := (command_cases hn h (exec_eq_commandState i s)).leaves_decision hs
  · exact hr hretry
  · exact ha habort

/-- Settles O38: the engine waits there, and RETRY and ABORT are the only commands accepted besides NOP. -/
theorem decisionPointExits : Obligations.DecisionPointExits := by
  refine ⟨fun s t hs hst => ?_, fun s i hs hn hr ha => exec_rejected (not_accepted_at_decision hs hn hr ha)⟩
  cases step_cause hst with
  | reset hr _ => exact .inr (.inr (.inr hr))
  | waits r _ _ ht => subst ht; exact .inl hs
  | command i x _ _ hw _ hc ht =>
    subst ht
    obtain ⟨rfl, rfl⟩ | ⟨rfl, hx⟩ := hc.leaves_decision hs
    · exact .inr (.inl ⟨hw, rfl, rfl⟩)
    · exact .inr (.inr (.inl ⟨hw, hx⟩))
  | engine e r _ hi _ _ _ => rw [hs] at hi; cases hi

/-! ## A RETRY in the cycle of the faulting poll (R173 (5)) -/

/-- A command that the acceptance table does not allow in this state is one of the rejected writes. -/
theorem rejects_of_issues {s : State} {i : Instr} (hw : s.issues i) (hn : ¬ acceptedIn s i) : s.rejects := by
  obtain ⟨hr, w, ha, hd⟩ := hw
  exact (rejects_iff ha hd).mpr ⟨hr, hn⟩

/-- Settles O39: `st` is POLL at the start of the cycle, so the RETRY is rejected while the engine takes the FAULT. -/
theorem retryInTheFaultingCycleRejected : Obligations.RetryInTheFaultingCycleRejected := by
  rintro s f hw ⟨hr, hs, hq, b, ht, hc⟩
  have hj : s.rejects := rejects_of_issues hw fun (h : s.st = .faultWait) => by rw [hs] at h; cases h
  exact ⟨_, step_of_rej_access hr (hostAccess_of_rejects hj) (engineStep_of_fault hs hq ht hc), rfl, rfl, rfl⟩

/-! ## ATTN (R169) -/

theorem attn_iff (s : State) : s.attn = true ↔ s.st = .faultWait ∨ s.st = .done := by
  simp [State.attn]

theorem attn_eq_false_iff (s : State) : s.attn = false ↔ s.st ≠ .faultWait ∧ s.st ≠ .done := by
  simp [State.attn]

/-- Of the commands only SEND 0 raises ATTN, from IDLE. -/
theorem CommandCase.raises_attn {s x : State} {i : Instr} (hc : CommandCase s x i) (hs : s.attn = false)
    (hx : x.attn = true) : s.st = .idle ∧ i = .send 0#16 ∧ x.st = .done := by
  obtain ⟨hnf, hnd⟩ := (attn_eq_false_iff s).mp hs
  cases hc with
  | sendEmpty hb he => subst he; exact ⟨((betweenTransfers_iff _).mp hb).resolve_right hnd, rfl, rfl⟩
  | retry hf _ => exact absurd hf hnf
  | abortTimeout hf _ _ => exact absurd hf hnf
  | abortFault hf _ _ => exact absurd hf hnf
  | sendBytes _ _ _ _ he => subst he; cases hx
  | ack _ he => subst he; cases hx
  | setle _ _ _ _ he => subst he; exact absurd hx (Bool.eq_false_iff.mp hs)
  | wrbuf _ _ _ _ he => subst he; exact absurd hx (Bool.eq_false_iff.mp hs)

/-- RETRY lowers it at the decision point, ACK and a SEND of bytes in DONE. -/
theorem CommandCase.lowers_attn {s x : State} {i : Instr} (hc : CommandCase s x i) (hs : s.attn = true)
    (hx : x.attn = false) :
    (s.st = .faultWait ∧ i = .retry) ∨ (s.st = .done ∧ i = .ack) ∨ (s.st = .done ∧ ∃ n, n ≠ 0#16 ∧ i = .send n) := by
  have hd : s.st.betweenTransfers = true → s.st = .done := fun hb =>
    ((attn_iff s).mp hs).resolve_left fun hf => by rw [hf] at hb; cases hb
  cases hc with
  | retry hf _ => exact .inl ⟨hf, rfl⟩
  | ack hb _ => exact .inr (.inl ⟨hd hb, rfl⟩)
  | sendBytes n hb _ hn _ => exact .inr (.inr ⟨hd hb, n, hn, rfl⟩)
  | sendEmpty _ he => subst he; cases hx
  | abortTimeout _ _ he => subst he; cases hx
  | abortFault _ _ he => subst he; cases hx
  | setle _ _ _ _ he => subst he; exact absurd hs (Bool.eq_false_iff.mp hx)
  | wrbuf _ _ _ _ he => subst he; exact absurd hs (Bool.eq_false_iff.mp hx)

/-- The engine enters DONE from the two states that wait for an answer. -/
theorem EngineCase.enters_done {s e : State} (hc : EngineCase s e) (hne : s.st ≠ .done) (hx : e.st = .done) :
    s.st = .poll ∨ s.st = .setData := by
  cases hc with
  | writeFailed _ _ hs _ _ _ => exact .inr hs
  | readFailed _ hs _ _ _ => exact .inl hs
  | pollLast _ _ hs _ _ _ _ _ => exact .inl hs
  | waiting _ he => subst he; exact absurd hx hne
  | counting _ _ he => subst he; exact absurd hx hne
  | _ => subst e; cases hx

theorem EngineCase.raises_attn {s e : State} (hc : EngineCase s e) (hs : s.attn = false) (hx : e.attn = true) :
    (s.st = .poll ∧ e.st = .faultWait) ∨ ((s.st = .poll ∨ s.st = .setData) ∧ e.st = .done) := by
  obtain ⟨hnf, hnd⟩ := (attn_eq_false_iff s).mp hs
  obtain hf | hd := (attn_iff e).mp hx
  · exact .inl ⟨(hc.enters_decision hnf hf).1, hf⟩
  · exact .inr ⟨hc.enters_done hnd hd, hd⟩

theorem step_raises_attn {s t : State} (hst : step s = .next t) (hs : s.attn = false) (ht : t.attn = true) :
    (s.st = .poll ∧ t.st = .faultWait) ∨ ((s.st = .poll ∨ s.st = .setData) ∧ t.st = .done) ∨
      (s.st = .idle ∧ s.issues (.send 0#16) ∧ t.st = .done) := by
  cases step_cause hst with
  | reset _ he => subst he; cases ht
  | waits r _ _ he => subst he; exact absurd ht (Bool.eq_false_iff.mp hs)
  | command i x _ _ hw _ hc he =>
    subst he
    obtain ⟨hidle, rfl, hx⟩ := hc.raises_attn hs ht
    exact .inr (.inr ⟨hidle, hw, hx⟩)
  | engine e r _ _ _ hc he =>
    subst he
    exact (hc.raises_attn hs ht).imp_right .inl

theorem step_lowers_attn {s t : State} (hst : step s = .next t) (hs : s.attn = true) (ht : t.attn = false) :
    s.pins.rst = true ∨ (s.st = .faultWait ∧ s.issues .retry) ∨ (s.st = .done ∧ s.issues .ack) ∨
      (s.st = .done ∧ ∃ n, n ≠ 0#16 ∧ s.issues (.send n)) := by
  cases step_cause hst with
  | reset hr _ => exact .inl hr
  | waits r _ _ he => subst he; exact absurd hs (Bool.eq_false_iff.mp ht)
  | command i x _ _ hw _ hc he =>
    subst he
    obtain ⟨hf, rfl⟩ | ⟨hd, rfl⟩ | ⟨hd, n, hn, rfl⟩ := hc.lowers_attn hs ht
    · exact .inr (.inl ⟨hf, hw⟩)
    · exact .inr (.inr (.inl ⟨hd, hw⟩))
    · exact .inr (.inr (.inr ⟨hd, n, hn, hw⟩))
  | engine e r _ hi _ _ _ => rw [(inert_iff _).mpr (.inr ((attn_iff s).mp hs))] at hi; cases hi

/-- Settles O40: the level by its definition, the rises and falls by what happened in the cycle. -/
theorem attnRisesAndFalls : Obligations.AttnRisesAndFalls :=
  ⟨attn_iff, fun _ _ => step_raises_attn, fun _ _ => step_lowers_attn⟩

/-! ## No bound, no timeout (R165) -/

theorem EngineCase.timeout_kept {s e : State} (hc : EngineCase s e) (hm : s.params.maxPolls = 0#16)
    (hf : s.fault.timeout = false) : e.fault.timeout = false := by
  cases hc with
  | pollFault _ _ _ _ _ _ _ he => subst he; rfl
  | pollTimeout _ _ _ _ _ _ hb _ =>
    rw [(boundReached_eq_false_iff _ _).mpr (.inl hm)] at hb
    cases hb
  | _ => subst e; exact hf

/-- Settles O41: the only write of `to = 1` is a timeout's, which needs a bound that is reached. -/
theorem noTimeoutWithoutABound : Obligations.NoTimeoutWithoutABound := by
  intro s t hm hst hf
  cases step_cause hst with
  | reset _ ht => subst ht; rfl
  | waits r _ _ ht => subst ht; exact hf
  | command i x _ _ _ _ hc ht =>
    subst ht
    obtain he | ⟨_, _, he⟩ := hc.fault_cases
    · exact (congrArg FaultReasons.timeout he).trans hf
    · exact congrArg FaultReasons.timeout he
  | engine e r _ _ _ hc ht => subst ht; exact hc.timeout_kept hm hf

end Sys2Proof.Machine
end

section
/-! Reset and the cost of an undecided poll (70_reset_and_hazards.md rules R190 to R193 and R204). -/
namespace Sys2Proof.Machine

/-! ## An additional undecided poll (R204) -/

/-- The cycle of an undecided poll below the bound (41_handshake_engine.md rule R123): POLL_WAIT is entered with a full
interval. -/
theorem run_undecided {s : State} {b : Byte} (h : s.Inv) (hs : s.st = .poll) (ht : s.tresp = .okByte b)
    (hc : classify s.params (decodeStatus s.params b) = .undecided)
    (hb : boundReached s.params (nextPolls s.polls) = false) (hn : s.noResetFor 1) :
    ∃ t, Reaches 1 s t ∧ t.st = .pollWait ∧ t.cnt = s.params.pollCycles.val ∧ t.polls = nextPolls s.polls ∧
      t.pstat = decodeStatus s.params b := by
  have he := engineStep_of_undecided hs (h.reqRead hs) ht hc
  rw [pollUndecided_of_below (s := s.recorded b) hb] at he
  obtain ⟨t, hrun, ha, hst, hidx, hcnt, hpolls, _, _, _, hpstat⟩ := run_engine hn (by rw [hs]; rfl) he
  exact ⟨t, ⟨hrun, ha, hidx⟩, hst, hcnt, hpolls, hpstat⟩

/-- Settles O60: `Q` cycles of POLL_WAIT and the silent ones of POLL lead to the answer (`reaches_status`), whose cycle is
`run_undecided`. -/
theorem undecidedPollRound : Obligations.UndecidedPollRound := by
  intro s lr timed rest b h hs hcnt hb hc htimed hl hn
  have hend : (⟨timed, lr, b⟩ : PollScript).endsAs s.params .undecided := ⟨htimed, hc⟩
  have hwait : s.enters .pollWait := ⟨hs, fun _ hd => hcnt.trans (congrArg Count.val (Option.some.inj hd))⟩
  have hbelow : boundReached s.params (nextPolls s.polls) = false :=
    (boundReached_eq_false_iff _ _).mpr (nextPolls_toNat s.polls ▸ hb)
  obtain ⟨u, hru, hi, hst, hpolls, ht⟩ := reaches_status rfl hwait hend hl h hn
  have hup := hru.after.params
  obtain ⟨t, hrt, hst', hcnt', hpolls', hpstat⟩ :=
    run_undecided hi hst ht (hup ▸ hc) (by rw [hup, hpolls, hbelow]) (hru.after.noReset hn)
  have hr := hru.trans hrt
  exact ⟨t, hr.run, hst', hup ▸ hcnt', hr.idx, by rw [hpolls', hpolls, nextPolls_toNat], hup ▸ hpstat,
    hr.after.trespIn_rest hl (PollScript.offers_length hend)⟩

/-! ## The state right after reset (R190 and R192) -/

theorem reset_readReg (r : HostReg) : State.reset.readReg r = 0#32 := by
  cases r <;> rfl

/-- Every address reads 0: the registers hold 0, and there is nothing else to read. -/
theorem reset_hostRead (a : HostAddr) : State.reset.hostRead a = 0#32 := by
  cases hr : HostReg.ofAddr a with
  | none => exact hostRead_of_unmapped hr _
  | some r => simp only [State.hostRead, hr, reset_readReg]

/-- The registers are views of elements that a reset cycle sets as in `State.reset`. -/
theorem hostRead_tick_resetElements (s : State) (a : HostAddr) : (s.tick s.resetElements).hostRead a = 0#32 :=
  reset_hostRead a

/-- Settles O52: the step is `step_reset`, the elements are those of `resetElements`, and the registers read 0. -/
theorem resetCycle : Obligations.ResetCycle := fun s h =>
  ⟨s.tick s.resetElements, step_reset h, rfl, rfl, rfl, rfl, rfl, rfl, rfl, rfl, rfl, rfl, rfl, rfl, rfl, rfl, rfl, rfl, rfl,
    rfl, rfl, fun a _ => hostRead_tick_resetElements s a⟩

/-- Settles O53: the elements and outputs by computation, the registers by `reset_hostRead`. -/
theorem resetState : Obligations.ResetState :=
  ⟨rfl, rfl, rfl, rfl, rfl, rfl, rfl, rfl, fun a _ => reset_hostRead a, reset_seq_wf⟩

end Sys2Proof.Machine
end
